-- ==== Sys2Proof/Word.lean ====
section
/-! DEFINITION. The plain types every other file uses: bus words, lane words, the numbers of channels, groups and plan
indices, and the two fixed-size tables (eight channels, four groups) the part is built of. Nothing here is a rule of
the manual; manual sections 4 and 5 of 00_scope.md give the numbering. -/

namespace Sys2Proof

/-- One byte of the shared RAM or of the serial memory. -/
abbrev Byte := BitVec 8

/-- A bus word: the 16 bits of one host access. -/
abbrev BusWord := BitVec 16

/-- A lane word: 32 bits of lane traffic, bit 31 first on the line (R20). -/
abbrev LaneWord := BitVec 32

/-- A channel number, 0 to 7; also the number of its transmit lane, receive lane, generator, checker and front end. -/
abbrev Chan := Fin 8

/-- A pace group, A = 0 to D = 3. -/
abbrev Grp := Fin 4

/-- A plan index, 0 to 127. -/
abbrev Idx := Fin 128

/-- A ring position, 0 to 15. -/
abbrev RingPos := Fin 16

/-- The plan index in the low seven bits of a number. -/
def idxOf (n : Nat) : Idx := ⟨n % 128, Nat.mod_lt _ (by decide)⟩

/-- One value for each of the channels 0 to 7. -/
structure Eight (α : Type) where
  c0 : α
  c1 : α
  c2 : α
  c3 : α
  c4 : α
  c5 : α
  c6 : α
  c7 : α
  deriving DecidableEq, Repr

namespace Eight

/-- The value of channel `i`. -/
def get {α : Type} (v : Eight α) (i : Fin 8) : α :=
  match i.val with
  | 0 => v.c0
  | 1 => v.c1
  | 2 => v.c2
  | 3 => v.c3
  | 4 => v.c4
  | 5 => v.c5
  | 6 => v.c6
  | _ => v.c7

/-- The table with channel `i`'s value replaced. -/
def set {α : Type} (v : Eight α) (i : Fin 8) (a : α) : Eight α :=
  match i.val with
  | 0 => { v with c0 := a }
  | 1 => { v with c1 := a }
  | 2 => { v with c2 := a }
  | 3 => { v with c3 := a }
  | 4 => { v with c4 := a }
  | 5 => { v with c5 := a }
  | 6 => { v with c6 := a }
  | _ => { v with c7 := a }

/-- The table whose value at channel `i` is `f i`. -/
def build {α : Type} (f : Fin 8 → α) : Eight α :=
  { c0 := f 0, c1 := f 1, c2 := f 2, c3 := f 3, c4 := f 4, c5 := f 5, c6 := f 6, c7 := f 7 }

end Eight

/-- One value for each of four things: the groups A to D, or the User Words 0 to 3. -/
structure Four (α : Type) where
  g0 : α
  g1 : α
  g2 : α
  g3 : α
  deriving DecidableEq, Repr

namespace Four

/-- The value of group (or user word) `i`. -/
def get {α : Type} (v : Four α) (i : Fin 4) : α :=
  match i.val with
  | 0 => v.g0
  | 1 => v.g1
  | 2 => v.g2
  | _ => v.g3

/-- The table with the value at `i` replaced. -/
def set {α : Type} (v : Four α) (i : Fin 4) (a : α) : Four α :=
  match i.val with
  | 0 => { v with g0 := a }
  | 1 => { v with g1 := a }
  | 2 => { v with g2 := a }
  | _ => { v with g3 := a }

/-- The table whose value at `i` is `f i`. -/
def build {α : Type} (f : Fin 4 → α) : Four α :=
  { g0 := f 0, g1 := f 1, g2 := f 2, g3 := f 3 }

end Four

/-- The channels in ascending order. -/
def allChans : List Chan := [0, 1, 2, 3, 4, 5, 6, 7]

/-- The groups in ascending order. -/
def allGroups : List Grp := [0, 1, 2, 3]

end Sys2Proof
end

