-- ==== Sys2Proof/Syntax.lean ====
section
/-! DEFINITION. The commands the block takes: one constructor for each of the 82 rows of spec/opcode_table.json, in the
table's order. The table gives no row any bits; the operands are those the rule of the row names (a channel, a lane, a
group, a bus word written, a lane word received, the bytes of a serial transfer). -/

namespace Sys2Proof

/-- The register a `USER_WORD_WRITE` writes: the User Length, or one bus word of a User Word, low word first (R21, R183). -/
inductive UserReg where
  | length
  | word (k : Fin 4) (high : Bool)
  deriving DecidableEq, Repr

/-- The register a `CHECKER_MODE_WRITE` writes (R27, R30). -/
inductive CheckerReg where
  | mode
  | fixedPattern
  | fixedPolarity
  deriving DecidableEq, Repr

/-- The register an `EVENT_ENABLE_WRITE` writes: the channel event enables through the Page Mask, or the device's (R151). -/
inductive EnableReg where
  | channel
  | device
  deriving DecidableEq, Repr

/-- The commands: the rows of spec/opcode_table.json. A channel command (`enable` to `resetChannel`) is the happening at
ONE channel (R136: "The command is one happening at each selected channel"); the host's write of the Command register
through the Page Mask is `registerWrite` or `commandBadCode`, which takes it at every selected channel. -/
inductive Instr where
  | powerOn
  | resetAssert
  | endOfReset (preloadLow : Bool) (ma : BitVec 2) (refclk : Bool)
  | enable (c : Chan)
  | disable (c : Chan)
  | startSweep (c : Chan)
  | startTrack (c : Chan)
  | single (c : Chan)
  | apply (c : Chan)
  | stop (c : Chan)
  | abort (c : Chan)
  | clearHalt (c : Chan)
  | clearCounters (c : Chan)
  | resetChannel (c : Chan)
  | commandBadCode (v : BusWord)
  | snapshot
  | preload
  | abortPreload
  | deviceCommandBadCode (v : BusWord)
  | registerWrite (a : BitVec 12) (v : BusWord)
  | planTableWrite (i : Idx) (w : Fin 4) (v : BusWord)
  | ringControlWordWrite (c : Chan) (p : RingPos) (v : BusWord)
  | handback (c : Chan)
  | overrunCountWrite (v : BusWord)
  | channelEventSetWrite (v : BusWord)
  | deviceEventSetWrite (v : BusWord)
  | eventEnableWrite (r : EnableReg) (v : BusWord)
  | membersWrite (g : Grp) (v : BusWord)
  | leadWrite (g : Grp) (v : BusWord)
  | txSourceWrite (t : Chan) (v : BusWord)
  | checkerSourceWrite (c : Chan) (v : BusWord)
  | generatorModeWrite (v : BusWord)
  | userWordWrite (r : UserReg) (v : BusWord)
  | checkerModeWrite (r : CheckerReg) (v : BusWord)
  | refdividerWrite (v : BusWord)
  | msCounterLowRead
  | signalAbsent (r : Chan)
  | signalPresent (r : Chan)
  | receiveWord (r : Chan) (w : LaneWord)
  | pointClosure (c : Chan)
  | lockGained (c : Chan)
  | lockLost (c : Chan)
  | signalLost (c : Chan)
  | tick
  | settleTimerExpiry (c : Chan)
  | lockTimerExpiry (c : Chan)
  | intervalTimerExpiry (c : Chan)
  | barrierTimerExpiry (g : Grp)
  | refLost
  | refOk
  | channelRefclkLoss (c : Chan)
  | groupRefclkLoss
  | checkerRefclkReturn (c : Chan)
  | planCheckRead (c : Chan)
  | planCheckEnd (c : Chan)
  | walkFetch (c : Chan)
  | selectedRefetch (c : Chan)
  | singleReturnFetch (c : Chan)
  | fill (c : Chan)
  | listRead (c : Chan)
  | candidateFetch (c : Chan)
  | reapplicationFetch (c : Chan)
  | trackCloseFetch (c : Chan)
  | groupCheckRead (g : Grp)
  | groupCheckEnd (g : Grp)
  | groupWalkFetch (g : Grp)
  | groupSelectedRefetch (g : Grp)
  | memberTakesCopy (c : Chan)
  | memberReport (c : Chan)
  | memberTakesAbort (c : Chan)
  | memberTakesEnding (c : Chan)
  | memberTakesHalt (c : Chan)
  | memberHaltReport (c : Chan)
  | serialTransferDone (data : List Byte)
  | preloadRamWrite
  | nack
  | retryWaitExpiry
  | transferTimeout
  | preloadHandedEnable (c : Chan)
  | preloadHandedStartSweep (c : Chan)
  | wordTime
  | ringBodyWordWrite (c : Chan) (p : RingPos) (w : Fin 15) (v : BusWord)
  deriving DecidableEq, Repr

end Sys2Proof
end

