-- ==== Sys2Proof/Decode.lean ====
section
/-! DEFINITION. The command a word spells by the table's bits. spec/opcode_table.json gives no row any bits (98_reader.md:
"n_rows_with_fields": 0, "n_rows_with_fixed": 0), so no word spells a command. -/

namespace Sys2Proof

/-- The command whose bits are `w`: none, for every word, since no row of the table has bits. -/
def decodeTableWord (nbits w : Nat) : Option Instr :=
  match nbits, w with
  | _, _ => none

end Sys2Proof
end

