-- ==== Sys2Proof/Config.lean ====
section
/-! DEFINITION. What the manual leaves open: the free values, opaque constants with no body that nothing in Lean can
evaluate. The fixed numbers of the manual stand beside the operations that use them. -/

namespace Sys2Proof.Config

/-- The byte at RAM offset `a` that nothing has written since the `epoch`-th power-on: "After power-on the contents of the
Plan Table are unknown" (R1), "the contents of every ring are unknown" (R75). A free value (assumption log 1). -/
opaque powerOnByte (epoch : Nat) (a : Nat) : Byte

/-- The Index of a Plan Check register whose check has read its last entry and has not ended: R14 defines it as "the next
entry to be read" and there is none. A free value, fresh for each `k` (assumption log 2). -/
opaque noNextIndex (k : Nat) : Idx

/-- How many of the raises that wait for an event set the Event Unit takes before a host clear of the set, or before a channel
reset's clear: "either may be taken first" (R152, R157). A free value, fresh for each `k` (assumption log 33). -/
opaque raisesTaken (k : Nat) : Nat

/-- What happens first while no command waits: 0 to 8, the Event Unit takes the next waiting raise of that event set, 0 to 7 the
channels' and 8 the device's; 9, the Preload Controller begins to read its next block. Raises in different sets have no order, and
no rule orders the Preload Controller among them. A free value, fresh for each `k` (assumption logs 33, 43). -/
opaque firstIdle (k : Nat) : Fin 10

end Sys2Proof.Config
end

