-- ==== Sys2Proof/Machine/State.lean ====
section
/-! DEFINITION. The state of the RLK-318 as plain data: what each block of 00_scope.md section 2 holds, the queue of waiting
commands, and the state right after reset. One structure per block; the chapter that owns a piece of state is named in its
docstring. -/

namespace Sys2Proof.Machine

open Sys2Proof

/-! ### Names of states, phases, outcomes and codes -/

/-- Channel states (R43). -/
inductive ChanState where
  | off | idle | sweep | applied | track | halted
  deriving DecidableEq, Repr

/-- Phases (R44). -/
inductive Phase where
  | none | check | settle | lockwait | dwell | record | stall | hold | wait
  deriving DecidableEq, Repr

/-- Origin (R44), also the ORIGIN of a record (R76). -/
inductive Origin where
  | none | sweep | single | track
  deriving DecidableEq, Repr

/-- Halt Cause (R44). -/
inductive HaltCause where
  | none | signal | plan | refclk | trackFail
  deriving DecidableEq, Repr

/-- Ring Policy (R81). -/
inductive RingPolicy where
  | stall | drop
  deriving DecidableEq, Repr

/-- Record Mode (R93). -/
inductive RecordMode where
  | all | moves
  deriving DecidableEq, Repr

/-- The four LFSR patterns (R22). -/
inductive Lfsr where
  | l7 | l15 | l23 | l31
  deriving DecidableEq, Repr

/-- Generator Mode (R21). -/
inductive GenMode where
  | off | lfsr (p : Lfsr) | user
  deriving DecidableEq, Repr

/-- Checker Mode (R27). -/
inductive CheckerMode where
  | auto | fixed | user | off
  deriving DecidableEq, Repr

/-- Checker State (R27). -/
inductive CheckerState where
  | off | nosignal | search | locked
  deriving DecidableEq, Repr

/-- Detected Pattern (R27). -/
inductive Detected where
  | none | lfsr (p : Lfsr) | user
  deriving DecidableEq, Repr

/-- Last Status (R140). -/
inductive LastStatus where
  | none | accepted | checking | badCode | badState | badArg | badConfig | planInvalid | notLead | inGroup
  | groupNotReady | noRefclk | preloadBusy
  deriving DecidableEq, Repr

/-- Result of the Plan Check register (R14). -/
inductive CheckResult where
  | none | running | pass | order | field | dwellUnset | duplicate | empty | abandoned | skipped
  deriving DecidableEq, Repr

/-- Point outcomes (R55, R91). -/
inductive PointOutcome where
  | complete | earlyStop | noLock | lockLost | signalLost | refLost | invalidEntry | aborted | ejected
  deriving DecidableEq, Repr

/-- Sweep outcomes (R61, R91). -/
inductive SweepOutcome where
  | selected | noneUsable | aborted | halted
  deriving DecidableEq, Repr

/-- Group states (R115). -/
inductive GroupState where
  | idle | running | stopping
  deriving DecidableEq, Repr

/-- TX Source (R109). -/
inductive TxSource where
  | off | gen (g : Chan) | loop (r : Chan)
  deriving DecidableEq, Repr

/-- Preload State (R168). -/
inductive PreloadState where
  | none | header | blocks | done | failed | aborted
  deriving DecidableEq, Repr

/-- Preload Cause (R178). -/
inductive PreloadCause where
  | none | header | noAck | busTimeout | format
  deriving DecidableEq, Repr

/-- Header Fault (R172). -/
inductive HeaderFault where
  | none | checksum | signature | version | count | length
  deriving DecidableEq, Repr

/-- Reason of Last Skip (R173). -/
inductive SkipReason where
  | none | checksum | type | length | target | range | groupRule
  deriving DecidableEq, Repr

/-- Write Fault Cause (R147). -/
inductive WriteFault where
  | none | groupRule | range | noChannel | preload | deviceCommand
  deriving DecidableEq, Repr

/-- Status of the Device Command Status register (R142). -/
inductive DeviceStatus where
  | none | accepted | badCode | badState
  deriving DecidableEq, Repr

/-! ### Events (chapter 8) -/

/-- The channel events (R149). -/
inductive ChanEvent where
  | point | sweepEnd | overrun | ringStall | lock | unlock | signalLoss | signalBack | trackMove | trackFail | halt
  | ejected | cmdRefused | routeChanged
  deriving DecidableEq, Repr

/-- The device events (R150). -/
inductive DevEvent where
  | refLost | refOk | preloadDone | preloadFail | badWrite | groupEnd (g : Grp)
  deriving DecidableEq, Repr

/-! ### Plan entries, windows, configuration (chapters 1, 3, 5) -/

/-- The four settings of a plan entry, as stored (R2); the two offsets are two's complement (R184). -/
structure Settings where
  drive : BitVec 5
  emphasis : BitVec 4
  phase : BitVec 6
  threshold : BitVec 5
  deriving DecidableEq, Repr

/-- A plan entry (R2). `limit` 0 is an absent early-stop limit (R4). -/
structure Entry where
  settings : Settings
  dwellClass : Fin 8
  skip : Bool
  limit : BitVec 16
  tag : BitVec 16
  deriving DecidableEq, Repr

/-- The fixed copy of an entry that a passing fetch hands over (R17). -/
structure Copy where
  index : Idx
  settings : Settings
  dwellWords : Nat
  limit : Option Nat
  tag : BitVec 16
  deriving DecidableEq, Repr

/-- A window of plan indices (R9). -/
structure Window where
  first : Idx
  last : Idx
  deriving DecidableEq, Repr

/-- The Track fields (R93), at the widths they store. -/
structure TrackConfig where
  interval : BitVec 16
  lookAhead : BitVec 2
  stepLimit : BitVec 4
  dwellClass : Fin 8
  hysteresis : BitVec 8
  failLimit : BitVec 4
  recordMode : RecordMode
  deriving DecidableEq, Repr

/-- The registers the config check copies: the sweep configuration of R45 and the Track fields (R46). -/
structure SweepConfig where
  settleTime : BitVec 16
  lockTimeout : BitVec 8
  policy : BitVec 2
  passLimit : BitVec 16
  autoTrack : Bool
  track : TrackConfig
  deriving DecidableEq, Repr

/-- A channel's window registers, sweep configuration and Ring Policy (R8, R45, R81, R93). -/
structure ChanConfig where
  winFirst : Idx
  winLast : Idx
  sweep : SweepConfig
  ringPolicy : RingPolicy
  deriving DecidableEq, Repr

/-! ### Generator and checker (chapter 2) -/

/-- A pattern generator: its configuration (R21) and its running sequence, the last bits emitted and the next user word
(R22, R23). `history` holds the last 32 bits of the sequence, newest in bit 0, of which a mode of degree n reads n. -/
structure Generator where
  mode : GenMode
  invert : Bool
  userLength : BitVec 3
  userWords : Four LaneWord
  history : LaneWord
  position : Fin 4
  deriving DecidableEq, Repr

/-- The point counters and, while counting is open, the dwell length and early-stop limit they are judged against (R38). -/
structure PointCounters where
  words : Nat
  bits : Nat
  errored : Nat
  firstError : Option Nat
  target : Option (Nat × Option Nat)
  deriving DecidableEq, Repr

/-- The monitor counters at their widths (R40). -/
structure Monitor where
  words : BitVec 48
  bits : BitVec 40
  errored : BitVec 32
  deriving DecidableEq, Repr

/-- A pattern checker: configuration and Checker Status (R27), the search (R30, R31, R35: `counts` is indexed by LFSR
candidate, lowest degree first and normal before inverted, or by user position), the reference of a lock (R33, R36), the
consecutive errored count (R37), the counters, and whether a REFCLK return has been handed and not yet taken (R164). -/
structure Checker where
  mode : CheckerMode
  fixedPattern : Lfsr
  fixedInverted : Bool
  state : CheckerState
  detected : Detected
  detectedInverted : Bool
  userPosition : Fin 4
  previous : Option LaneWord
  counts : Eight Nat
  reference : LaneWord
  expected : Fin 4
  errorRun : Nat
  point : PointCounters
  monitor : Monitor
  refReturn : Bool
  deriving DecidableEq, Repr

/-! ### Records, the Selection Record, and what a channel is doing (chapters 3 to 6) -/

/-- A POINT record (R53, R88). -/
structure PointRecord where
  origin : Origin
  group : Bool
  index : Idx
  seq : BitVec 8
  words : Nat
  bits : Nat
  errored : Nat
  firstError : Option Nat
  tag : BitVec 16
  stamp : BitVec 16
  outcome : PointOutcome
  deriving DecidableEq, Repr

/-- A SUMMARY record (R61, R89). -/
structure SummaryRecord where
  group : Bool
  outcome : SweepOutcome
  policy : BitVec 2
  selected : Idx
  measured : Nat
  usable : Nat
  runFirst : Idx
  runLength : Nat
  seq : BitVec 8
  cause : HaltCause
  stamp : BitVec 16
  deriving DecidableEq, Repr

/-- A MOVE record (R90, R103). -/
structure MoveRecord where
  fromIndex : Idx
  toIndex : Idx
  fromErrors : Nat
  toErrors : Nat
  anchor : Idx
  stamp : BitVec 16
  deriving DecidableEq, Repr

/-- A ring record of any kind (R88 to R90). -/
inductive Record where
  | point (r : PointRecord)
  | summary (r : SummaryRecord)
  | move (r : MoveRecord)
  deriving DecidableEq, Repr

/-- The point that is Best so far, or a group point's sums (R56, R115). -/
structure Best where
  index : Idx
  bits : Nat
  words : Nat
  deriving DecidableEq, Repr

/-- A Selection Record (R56). -/
structure Selection where
  best : Option Best
  runFirst : Idx
  runLength : Nat
  longestFirst : Idx
  longestLength : Nat
  measured : Nat
  usable : Nat
  lastPoint : Option Idx
  deriving DecidableEq, Repr

/-- The figures of a group's Selection Record and its policy, as a member's summary carries them (R127, R129, R130). -/
structure Figures where
  policy : BitVec 2
  measured : Nat
  usable : Nat
  runFirst : Idx
  runLength : Nat
  deriving DecidableEq, Repr

/-- A member report (R122). -/
structure Report where
  outcome : PointOutcome
  bits : Nat
  words : Nat
  deriving DecidableEq, Repr

/-- Where a plan check stands (R10, R11): waiting for the read of entry `next`, the settings of the previous non-SKIP
entry at hand; or judged, with its result and index, its end not yet taken (R12). -/
inductive CheckProgress where
  | reading (next : Idx) (previous : Option Settings)
  | judged (result : CheckResult) (at_ : Idx)
  deriving DecidableEq, Repr

/-- What a channel does once its pending record has been written or discarded (R83). -/
inductive After where
  | sweepPoint
  | memberPoint (r : Report)
  | selected (solo : Bool)
  | noneUsable
  | single
  | candidate
  | move
  deriving DecidableEq, Repr

/-- What a Channel Controller is doing in SWEEP or TRACK. It fixes the phase (R44, `Task.phase`) and says which grant of
the RAM Arbiter the channel waits for. -/
inductive Task where
  /-- Nothing: OFF, IDLE, APPLIED and HALTED. -/
  | idle
  /-- CHECK of a solo sweep (R10, R12). -/
  | check (p : CheckProgress)
  /-- CHECK of a group sweep, made by the Pace Controller (R120). -/
  | memberCheck
  /-- SETTLE, waiting for the group's fetch (R121). -/
  | memberWait
  /-- SETTLE, the walk fetch waiting to read entry `next` (R15, R49). -/
  | walk (next : Idx)
  /-- SETTLE with an entry applied (R50). -/
  | settle (p : Copy)
  /-- LOCKWAIT (R51). -/
  | lockwait (p : Copy)
  /-- DWELL (R52). -/
  | dwell (p : Copy)
  /-- RECORD, the pending record waiting for its fill (R54, R79). -/
  | record (r : Record) (next : After)
  /-- STALL with the pending record, which waits for a handback (R82, R83). -/
  | stall (r : Record) (next : After)
  /-- RECORD of the ending, the re-fetch of the selected index waiting; the time the ending began (R60, R61). -/
  | selectedRefetch (i : Idx) (stamp : BitVec 16)
  /-- RECORD of a SINGLE, the re-fetch of the prior index waiting (R68). -/
  | singleReturn (i : Idx)
  /-- HOLD at the group's barrier (R122). -/
  | hold
  /-- WAIT, the interval timer running (R97). -/
  | wait
  /-- WAIT, the list reads: indices still to read, and those found (R98). -/
  | listing (todo : List Idx) (found : List Idx)
  /-- SETTLE, a candidate's fetch waiting (R99). -/
  | candidateFetch
  /-- RECORD, the reapplication fetch of the decided index waiting (R102). -/
  | reapply (i : Idx)
  /-- SETTLE after a reapplication (R102). -/
  | resettle
  /-- The fetch of the current index that closes a STOP or ABORT in a track (R105, R106). -/
  | closeFetch
  deriving DecidableEq, Repr

/-- The kind of a channel's timer (R161). -/
inductive TimerKind where
  | settle | lock | interval
  deriving DecidableEq, Repr

/-- A running channel timer: the ticks it has still to count. At 0 its expiry is handed and not yet taken (R161). -/
structure Timer where
  kind : TimerKind
  left : Nat
  deriving DecidableEq, Repr

/-- What a checker hands its Channel Controller (R38, R39). -/
inductive Handed where
  | closure (early : Bool)
  | lockGained
  | lockLost
  | signalLost
  deriving DecidableEq, Repr

/-- What the Pace Controller hands a member (R121, R127, R129, R130). -/
inductive GroupMessage where
  | copy (p : Copy)
  | abort (f : Figures)
  | ending (p : Option Copy) (f : Figures)
  | halt (invalid : Option Idx) (f : Figures)
  deriving DecidableEq, Repr

/-- The kept measurement of one candidate of a track cycle (R99). -/
structure Kept where
  index : Idx
  complete : Bool
  bits : Nat
  words : Nat
  deriving DecidableEq, Repr

/-- A track cycle: the candidate list, the position measured, and the kept measurements in list order (R98, R99). -/
structure Cycle where
  list : List Idx
  position : Nat
  kept : List Kept
  deriving DecidableEq, Repr

/-- The Plan Check register (R14); `fetch` is its Stage. -/
structure PlanCheck where
  result : CheckResult
  index : Idx
  fetch : Bool
  deriving DecidableEq, Repr

/-- The state a START_SWEEP or SINGLE saves: the applied index where the prior state was APPLIED, and the window in force
(R47, R67). -/
structure Prior where
  applied : Option Idx
  window : Option Window
  deriving DecidableEq, Repr

/-- A Channel Controller (chapters 1, 3, 4, 5, 7). -/
structure Controller where
  state : ChanState
  task : Task
  origin : Origin
  stopping : Bool
  current : Option Idx
  haltCause : HaltCause
  seq : BitVec 8
  window : Option Window
  force : Option SweepConfig
  prior : Option Prior
  selection : Selection
  timer : Option Timer
  planCheck : PlanCheck
  command : BitVec 16
  lastCommand : BitVec 8
  lastStatus : LastStatus
  fillPosition : RingPos
  overrun : BitVec 8
  anchor : Option Idx
  failCount : Nat
  cycle : Cycle
  /-- The group whose sweep the channel is taking part in (R119); not its membership, which the group record holds. -/
  group : Option Grp
  /-- Handed by the checker and not yet taken, oldest first (R38, R39). -/
  inbox : List Handed
  /-- Handbacks handed and not yet taken (R77). -/
  handbacks : Nat
  /-- REFCLK loss handed and not yet taken (R164). -/
  refLoss : Bool
  /-- Handed by the Pace Controller and not yet taken (R121, R127, R129, R130). -/
  message : Option GroupMessage
  /-- A member report on its way to the Pace Controller (R122, R123). -/
  report : Option Report
  /-- A report of a REFCLK halt on its way to the Pace Controller (R130). -/
  haltReport : Bool
  deriving DecidableEq, Repr

/-- The snapshot registers of a channel (R143, R144). -/
structure Snapshot where
  monitor : Monitor
  state : ChanState
  phase : Phase
  index : Option Idx
  time : BitVec 32
  seq : BitVec 16
  deriving DecidableEq, Repr

/-- One channel: configuration, generator, checker, Channel Controller, front end, event set and enables, the raises that its
blocks have made in the set and the Event Unit has yet to take, oldest first (R149, R156), snapshot. -/
structure Channel where
  config : ChanConfig
  gen : Generator
  chk : Checker
  ctl : Controller
  front : Settings
  events : BitVec 14
  enables : BitVec 14
  raised : List ChanEvent
  snap : Snapshot
  deriving DecidableEq, Repr

/-! ### The Lane Matrix, the Pace Controller, the device (chapters 6 to 11) -/

/-- The Lane Matrix and the lanes: the two source registers of each lane or checker (R109, R112), the word each transmit
lane sent last (none while it sends nothing, R110), and whether line activity is present on each receive lane (R20). -/
structure Lanes where
  txSource : Eight TxSource
  checkerSource : Eight Chan
  tx : Eight (Option LaneWord)
  activity : Eight Bool
  deriving DecidableEq, Repr

/-- What the Pace Controller is doing for a group. -/
inductive GroupTask where
  /-- Nothing: the group is IDLE. -/
  | idle
  /-- The group plan check (R120). -/
  | check (p : CheckProgress)
  /-- The walk fetch, waiting to read entry `next` (R121). -/
  | walk (next : Idx)
  /-- A point is under way at the members (R122). -/
  | point
  /-- The re-fetch of the selected index (R129). -/
  | selectedRefetch (i : Idx)
  deriving DecidableEq, Repr

/-- A group record (R115), with the copies the Pace Controller holds while the group runs, the member reports, the barrier
timer (R123), whether the sweep has begun, and the halting condition (R130). -/
structure Group where
  members : BitVec 8
  lead : Option Chan
  state : GroupState
  current : Option Idx
  atBarrier : BitVec 8
  barrierTimeout : BitVec 8
  selection : Selection
  lastOutcome : Option SweepOutcome
  task : GroupTask
  begun : Bool
  halting : Bool
  force : Option SweepConfig
  window : Option Window
  reports : Eight (Option Report)
  barrier : Option Nat
  deriving DecidableEq, Repr

/-- The Timebase (chapter 9): RefDivider, the prescaler with the divider of the tick in progress, the sub-millisecond count,
the Millisecond Counter and its holding register, and the REFCLK monitor. -/
structure Timebase where
  refDivider : BitVec 16
  prescaler : Nat
  tickLength : Nat
  subMs : Nat
  ms : BitVec 32
  msHolding : BitVec 16
  present : Bool
  gap : Nat
  deriving DecidableEq, Repr

/-- A serial memory transfer: what it reads, at which device address, from where, how many bytes, and the retries made (R167,
R169, R170). -/
inductive TransferKind where
  | header | head | body
  deriving DecidableEq, Repr

/-- See `TransferKind`. -/
structure Transfer where
  kind : TransferKind
  device : BitVec 7
  address : Nat
  length : Nat
  retries : Nat
  deriving DecidableEq, Repr

/-- A write of the Preload Controller to the shared RAM that waits for its grant: a plan entry or a ring control word
(R174). -/
inductive RamTarget where
  | entry (i : Idx) (w : List BusWord)
  | control (c : Chan) (p : RingPos) (w : BusWord)
  deriving DecidableEq, Repr

/-- What the Preload Controller is doing (chapter 10). -/
inductive PreloadWork where
  | idle
  /-- A transfer is in progress (R169). -/
  | transfer (t : Transfer)
  /-- The 1 ms retry wait (R170). -/
  | retryWait (t : Transfer)
  /-- Writing a staged PLAN or RING block (R174). -/
  | writing (todo : List RamTarget)
  /-- Between blocks: one has been applied or skipped, and the next does not yet begin to be read (R177). -/
  | between
  deriving DecidableEq, Repr

/-- The start actions of R175 not yet taken: ENABLEs handed, and the START_SWEEPs to hand after them. -/
structure StartActions where
  enables : BitVec 8
  starts : BitVec 8
  deriving DecidableEq, Repr

/-- The Preload Controller: straps (R167), status registers (R178), and the load under way (R169 to R175). -/
structure Preload where
  strapPreload : Bool
  strapAddress : BitVec 2
  state : PreloadState
  cause : PreloadCause
  headerFault : HeaderFault
  blockNumber : Nat
  applied : Nat
  skipped : Nat
  lastSkip : SkipReason
  lastSkipBlock : Nat
  dropped : BitVec 16
  imageId : BitVec 32
  enableMask : BitVec 8
  startMask : BitVec 8
  work : PreloadWork
  staging : List Byte
  blockCount : Nat
  imageLength : Nat
  blockAddress : Nat
  start : Option StartActions
  deriving DecidableEq, Repr

/-- A host access that begins while the part is held in reset and is served after it (R179). -/
inductive Access where
  | write (offset : Nat) (v : BusWord)
  | read (offset : Nat)
  deriving DecidableEq, Repr

/-- The device registers of the Host Interface, the accesses that wait, and the word the last read row returned (chapters
7, 11). -/
structure HostInterface where
  pageMask : BitVec 8
  argument : BitVec 16
  lastCommand : BitVec 8
  status : DeviceStatus
  fault : WriteFault
  faultOffset : BitVec 16
  waiting : List Access
  readData : BusWord
  deriving DecidableEq, Repr

/-- The requesters of the RAM Arbiter: channels 0 to 7, then the Pace Controller, then the Preload Controller (R180). -/
abbrev Requester := Fin 10

/-- The RAM Arbiter's rotation, and the Pace Controller's (R180). `turns` is the model's own: the turns of the rotation that are
still to come for the fetches and ending writes a channel has made within a happening of its own (assumption log 18). -/
structure Arbiter where
  lastServed : Requester
  lastGroup : Grp
  paceRequest : Option Grp
  turns : Eight Nat
  deriving DecidableEq, Repr

/-- How an ending that has made its records goes on: a halt with a cause, which a group member reports to the Pace Controller
where REFCLK was lost (R65, R107, R130), or the return to rest of an abort (R64, R127). -/
inductive Closing where
  | halt (cause : HaltCause) (reports : Bool)
  | abort
  deriving DecidableEq, Repr

/-- An ending of two records that has made the fill of the first, with a host access served before that of the second (R86, R180):
its channel, the summary still to be filled, and how the ending goes on. -/
structure Ending where
  chan : Chan
  summary : Record
  closing : Closing
  deriving DecidableEq, Repr

/-- The part: everything but the queue of commands. `ram` is the shared RAM by window offset in canonical form (strictly
rising offsets; an unlisted byte has not been written since the last power-on). `held` says the part is held in reset
(R166). `epoch` and `free` count power-ons and free values used: the model's own fields. -/
structure Device where
  chans : Eight Channel
  lanes : Lanes
  groups : Four Group
  dwell : Eight (BitVec 12)
  time : Timebase
  preload : Preload
  host : HostInterface
  arbiter : Arbiter
  events : BitVec 9
  enables : BitVec 9
  /-- Raised in the device event set and not yet taken by the Event Unit, oldest first (R149, R156). -/
  raised : List DevEvent
  /-- REFCLK loss handed to the Pace Controller and not yet taken (R164). -/
  groupRefLoss : Bool
  /-- The ending that stands between its two fills, if one does; the model's own field (assumption log 18). -/
  ending : Option Ending
  ram : List Host.Cell
  held : Bool
  epoch : Nat
  free : Nat
  deriving DecidableEq, Repr

/-- The machine: the commands that wait, first in first out, and the part. -/
structure State where
  pending : List Instr
  dev : Device
  deriving DecidableEq, Repr

/-- Why the part faults: it never does. The manual gives every host access, every command and every happening an effect: an
access to an offset that holds nothing reads 0 or is ignored (R181), and a command that is not taken is refused with a
status (R137). No command raises a fault, which is safe: nothing is cut short. -/
inductive Fault where
  deriving DecidableEq, Repr

/-- Why the model refuses a command. -/
inductive Refusal where
  /-- Raised by an arm of `exec` whose command has no meaning yet; safe, since nothing is claimed of it. No arm raises it. -/
  | notModelled (mnemonic : String)
  deriving DecidableEq, Repr

/-! ### Values after reset -/

/-- The rest settings (R5). -/
def restSettings : Settings := { drive := 10, emphasis := 0, phase := 0, threshold := 0 }

/-- Track field defaults (R93). -/
def TrackConfig.default : TrackConfig :=
  { interval := 1000, lookAhead := 1, stepLimit := 4, dwellClass := 0, hysteresis := 0, failLimit := 3, recordMode := .all }

/-- Sweep configuration defaults (R45). -/
def SweepConfig.default : SweepConfig :=
  { settleTime := 100, lockTimeout := 10, policy := 0, passLimit := 0, autoTrack := false, track := TrackConfig.default }

/-- Window, sweep configuration and Ring Policy defaults (R8, R45, R81). -/
def ChanConfig.default : ChanConfig :=
  { winFirst := 0, winLast := 127, sweep := SweepConfig.default, ringPolicy := .stall }

/-- Generator defaults (R21); no sequence runs before the first ENABLE, and its held state is the start state (R22, R23;
assumption log 3). -/
def Generator.default : Generator :=
  { mode := .lfsr .l31, invert := false, userLength := 1, userWords := Four.build fun _ => 0,
    history := BitVec.allOnes 32, position := 0 }

/-- Point counters after a reset: zero, no first error, counting closed (R38). -/
def PointCounters.zero : PointCounters := { words := 0, bits := 0, errored := 0, firstError := none, target := none }

/-- Monitor counters after a reset or a clear (R40, R41). -/
def Monitor.zero : Monitor := { words := 0, bits := 0, errored := 0 }

/-- Checker defaults (R27, R38, R40). -/
def Checker.default : Checker :=
  { mode := .auto, fixedPattern := .l31, fixedInverted := false, state := .off, detected := .none,
    detectedInverted := false, userPosition := 0, previous := none, counts := Eight.build fun _ => 0, reference := 0,
    expected := 0, errorRun := 0, point := PointCounters.zero, monitor := Monitor.zero, refReturn := false }

/-- A cleared Selection Record (R56). -/
def Selection.cleared : Selection :=
  { best := none, runFirst := 0, runLength := 0, longestFirst := 0, longestLength := 0, measured := 0, usable := 0,
    lastPoint := none }

/-- No track cycle under way (R96). -/
def Cycle.empty : Cycle := { list := [], position := 0, kept := [] }

/-- The Plan Check register after a reset (R14). -/
def PlanCheck.default : PlanCheck := { result := .none, index := 0, fetch := false }

/-- Channel Controller values after power-on and RESET# (R73, R96, R136, R139). -/
def Controller.default : Controller :=
  { state := .off, task := .idle, origin := .none, stopping := false, current := none, haltCause := .none, seq := 0,
    window := none, force := none, prior := none, selection := Selection.cleared, timer := none,
    planCheck := PlanCheck.default, command := 0, lastCommand := 0, lastStatus := .none, fillPosition := 0, overrun := 0,
    anchor := none, failCount := 0, cycle := Cycle.empty, group := none, inbox := [], handbacks := 0, refLoss := false,
    message := none, report := none, haltReport := false }

/-- Snapshot registers after a reset (R144). -/
def Snapshot.default : Snapshot :=
  { monitor := Monitor.zero, state := .off, phase := .none, index := none, time := 0, seq := 0 }

/-- A channel after power-on and RESET#. -/
def Channel.default : Channel :=
  { config := ChanConfig.default, gen := Generator.default, chk := Checker.default, ctl := Controller.default,
    front := restSettings, events := 0, enables := 0, raised := [], snap := Snapshot.default }

/-- Identity routes, nothing sent (R109, R112). -/
def Lanes.default (activity : Eight Bool) : Lanes :=
  { txSource := Eight.build .gen, checkerSource := Eight.build id, tx := Eight.build fun _ => none, activity := activity }

/-- An empty group, Barrier Timeout 50 (R115). -/
def Group.default : Group :=
  { members := 0, lead := none, state := .idle, current := none, atBarrier := 0, barrierTimeout := 50,
    selection := Selection.cleared, lastOutcome := none, task := .idle, begun := false, halting := false, force := none,
    window := none, reports := Eight.build fun _ => none, barrier := none }

/-- The Timebase after a reset, with the monitor's first state (R158 to R163). The gap count that goes with ABSENT is the 4 µs
that the state stands for, as after REF_LOST (assumption log 31). -/
def Timebase.default (present : Bool) : Timebase :=
  { refDivider := 100, prescaler := 0, tickLength := 100, subMs := 0, ms := 0, msHolding := 0,
    present := present, gap := if present then 0 else 4 }

/-- The Preload Controller after a reset with the sampled straps, before any preload (R167, R178). -/
def Preload.default (strap : Bool) (ma : BitVec 2) : Preload :=
  { strapPreload := strap, strapAddress := ma, state := .none, cause := .none, headerFault := .none, blockNumber := 0,
    applied := 0, skipped := 0, lastSkip := .none, lastSkipBlock := 0, dropped := 0, imageId := 0, enableMask := 0,
    startMask := 0, work := .idle, staging := [], blockCount := 0, imageLength := 0, blockAddress := 0, start := none }

/-- The Host Interface after a reset (R132, R142, R147); `readData` is the model's own (assumption log 4). -/
def HostInterface.default : HostInterface :=
  { pageMask := 1, argument := 0, lastCommand := 0, status := .none, fault := .none, faultOffset := 0, waiting := [],
    readData := 0 }

/-- The RAM Arbiter after a reset (R180). -/
def Arbiter.default : Arbiter := { lastServed := 9, lastGroup := 3, paceRequest := none, turns := Eight.build fun _ => 0 }

/-- Every block at its reset value (R166), over what a reset does not reach: the RAM, the line activity and the counts of
free values. -/
def Device.afterReset (strap : Bool) (ma : BitVec 2) (present : Bool) (activity : Eight Bool) (ram : List Host.Cell)
    (epoch free : Nat) : Device :=
  { chans := Eight.build fun _ => Channel.default, lanes := Lanes.default activity,
    groups := Four.build fun _ => Group.default, dwell := Eight.build fun _ => 0, time := Timebase.default present,
    preload := Preload.default strap ma, host := HostInterface.default, arbiter := Arbiter.default, events := 0,
    enables := 0, raised := [], groupRefLoss := false, ending := none, ram := ram, held := false, epoch := epoch, free := free }

/-- The machine right after reset: the end of the power-on interval with PRELOAD# high, MA1–MA0 at their pull-ups, REFCLK
present and no line active (assumption log 5), the RAM unwritten and the queue empty. -/
def State.reset : State :=
  { pending := [], dev := Device.afterReset false 3 true (Eight.build fun _ => false) [] 0 0 }

end Sys2Proof.Machine
end

