-- ==== Sys2Proof/Machine/Flags.lean ====
section
/-! DEFINITION. The Event Unit (chapter 8): the bits of the two event sets, raising, taking a raise, clearing and enabling, and
the Channel Summary and IRQ#, which are computed from the sets and never stored. A block's raise waits for the Event Unit, which
takes each as a happening of its own, in order (R149, R156). -/

namespace Sys2Proof.Machine

open Sys2Proof

/-- The bit of a channel event in its set and in the enables (R183, offset 0x0152). -/
def chanEventBit (e : ChanEvent) : Nat :=
  match e with
  | .point => 0
  | .sweepEnd => 1
  | .overrun => 2
  | .ringStall => 3
  | .lock => 4
  | .unlock => 5
  | .signalLoss => 6
  | .signalBack => 7
  | .trackMove => 8
  | .trackFail => 9
  | .halt => 10
  | .ejected => 11
  | .cmdRefused => 12
  | .routeChanged => 13

/-- The bit of a device event in its set and in the enables (R182, offset 0x001A). -/
def devEventBit (e : DevEvent) : Nat :=
  match e with
  | .refLost => 0
  | .refOk => 1
  | .preloadDone => 2
  | .preloadFail => 3
  | .badWrite => 4
  | .groupEnd g => 5 + g.val

/-- Set bit `n` of an event set: a raise that is taken makes the event pending, or leaves it pending (R148). -/
def setBit {w : Nat} (x : BitVec w) (n : Nat) : BitVec w := x ||| BitVec.ofNat w (2 ^ n)

/-- Clear the bits that are one in the written word (R152). -/
def clearBits {w : Nat} (x : BitVec w) (v : BusWord) : BitVec w := x &&& ~~~(v.setWidth w)

/-- A channel, with one event raised in its set: the raise waits behind those made before it (R148, R149). -/
def chanRaise (e : ChanEvent) (k : Channel) : Channel := { k with raised := k.raised ++ [e] }

/-- A channel, with several events raised in order (R149). -/
def chanRaiseAll (es : List ChanEvent) (k : Channel) : Channel := { k with raised := k.raised ++ es }

/-- Raise an event of the device set (R148, R150). -/
def devRaise (e : DevEvent) (d : Device) : Device := { d with raised := d.raised ++ [e] }

/-- The Event Unit takes the first `n` raises that wait for a channel's set (R149, R156). -/
def takeRaises (n : Nat) (k : Channel) : Channel :=
  { k with
    events := (k.raised.take n).foldl (fun x e => setBit x (chanEventBit e)) k.events
    raised := k.raised.drop n }

/-- The Event Unit takes the first `n` raises that wait for the device set (R149, R156). -/
def devTakeRaises (n : Nat) (d : Device) : Device :=
  { d with
    events := (d.raised.take n).foldl (fun x e => setBit x (devEventBit e)) d.events
    raised := d.raised.drop n }

/-- A host clear of a channel's set, taken after the first `n` of the raises that wait and before the others (R152, R156). -/
def clearAfter (n : Nat) (v : BusWord) (k : Channel) : Channel :=
  let t := takeRaises n k
  { t with events := clearBits t.events v }

/-- Is it an event that the Channel Controller raises (R149)? The checker and the Lane Matrix raise the others. -/
def byController (e : ChanEvent) : Bool :=
  match e with
  | .point => true
  | .sweepEnd => true
  | .overrun => true
  | .ringStall => true
  | .lock => false
  | .unlock => false
  | .signalLoss => false
  | .signalBack => false
  | .trackMove => true
  | .trackFail => true
  | .halt => true
  | .ejected => true
  | .cmdRefused => true
  | .routeChanged => false

/-- Is a channel event pending? -/
def chanPending (k : Channel) (e : ChanEvent) : Bool := k.events.getLsbD (chanEventBit e)

/-- Is a device event pending? -/
def devPending (d : Device) (e : DevEvent) : Bool := d.events.getLsbD (devEventBit e)

/-- Part c of the Channel Summary: some event of the channel is pending with its enable set (R154). -/
def chanSummary (k : Channel) : Bool := k.events &&& k.enables != 0

/-- Part Device of the Channel Summary (R154). -/
def devSummary (d : Device) : Bool := d.events &&& d.enables != 0

/-- The Channel Summary register: bits 7–0 the channels, bit 8 the device (R154, R182). -/
def summaryWord (d : Device) : BusWord :=
  BitVec.ofNat 16
    ((if chanSummary d.chans.c0 then 1 else 0) + (if chanSummary d.chans.c1 then 2 else 0)
      + (if chanSummary d.chans.c2 then 4 else 0) + (if chanSummary d.chans.c3 then 8 else 0)
      + (if chanSummary d.chans.c4 then 16 else 0) + (if chanSummary d.chans.c5 then 32 else 0)
      + (if chanSummary d.chans.c6 then 64 else 0) + (if chanSummary d.chans.c7 then 128 else 0)
      + (if devSummary d then 256 else 0))

/-- IRQ# is driven low while at least one part of the Channel Summary is set (R155). -/
def irqLow (d : Device) : Bool := summaryWord d != 0

end Sys2Proof.Machine
end

