-- ==== Sys2Proof/Machine/Ops.lean ====
section
/-! DEFINITION. The named operations over memory, channels, groups and the arbiter that every meaning is built of. -/

namespace Sys2Proof.Machine

open Sys2Proof

/-! ### The shared RAM (R1, R75) -/

/-- The byte listed at an offset, if any: an unlisted byte has not been written since power-on. -/
def Memory.lookup (m : List Host.Cell) (a : Nat) : Option Byte :=
  match m with
  | [] => none
  | (k, b) :: m => if k = a then some b else Memory.lookup m a

/-- List a byte at an offset, keeping the offsets strictly rising. -/
def Memory.insert (m : List Host.Cell) (a : Nat) (b : Byte) : List Host.Cell :=
  match m with
  | [] => [(a, b)]
  | (k, v) :: m =>
    if a < k then (a, b) :: (k, v) :: m
    else if a = k then (a, b) :: m
    else (k, v) :: Memory.insert m a b

/-- The canonical form: strictly rising offsets. An unlisted offset has no value of its own in the list, so no entry can
repeat one. -/
def Memory.wf (m : List Host.Cell) : Bool :=
  match m with
  | [] => true
  | [_] => true
  | (a, _) :: (b, x) :: m => decide (a < b) && Memory.wf ((b, x) :: m)

/-- A byte of the shared RAM: what was written there, or the unknown contents of power-on (R1, R75). -/
def ramByte (d : Device) (a : Nat) : Byte := (Memory.lookup d.ram a).getD (Config.powerOnByte d.epoch a)

/-- The bus word at an even offset; its low byte lies at the lower offset (assumption log 6). -/
def ramWord (d : Device) (a : Nat) : BusWord := ramByte d (a + 1) ++ ramByte d a

/-- Store a bus word (R1, R75: one bus word per access). -/
def writeWord (a : Nat) (v : BusWord) (d : Device) : Device :=
  { d with ram := Memory.insert (Memory.insert d.ram a (v.setWidth 8)) (a + 1) (v.extractLsb' 8 8) }

/-- Store consecutive bus words, in ascending order. -/
def writeWords (a : Nat) (ws : List BusWord) (d : Device) : Device :=
  match ws with
  | [] => d
  | w :: ws => writeWords (a + 2) ws (writeWord a w d)

/-- The offset of plan entry `i` (R1). -/
def entryAddr (i : Idx) : Nat := 0x0400 + 8 * i.val

/-- The offset of position `p` of ring `c`, which is its control word (R75). -/
def ringAddr (c : Chan) (p : RingPos) : Nat := 0x0800 + 0x200 * c.val + 32 * p.val

/-! ### Sets of channels -/

/-- Is channel `c` in a mask (bit c for channel c)? -/
def inMask (m : BitVec 8) (c : Chan) : Bool := m.getLsbD c.val

/-- The mask with channel `c` added. -/
def maskInsert (m : BitVec 8) (c : Chan) : BitVec 8 := m ||| BitVec.ofNat 8 (2 ^ c.val)

/-- The mask with channel `c` taken out. -/
def maskErase (m : BitVec 8) (c : Chan) : BitVec 8 := m &&& ~~~(BitVec.ofNat 8 (2 ^ c.val))

/-- Do something at every channel of a mask, in ascending order. -/
def forMask (m : BitVec 8) (f : Chan → Device → Device) (d : Device) : Device :=
  allChans.foldl (fun d c => if inMask m c then f c d else d) d

/-- Do something at every channel, in ascending order. -/
def forChans (f : Chan → Device → Device) (d : Device) : Device := allChans.foldl (fun d c => f c d) d

/-- Do something at every group, in the order A to D. -/
def forGroups (f : Grp → Device → Device) (d : Device) : Device := allGroups.foldl (fun d g => f g d) d

/-! ### Channels and groups -/

/-- Channel `c`. -/
def Device.chan (d : Device) (c : Chan) : Channel := d.chans.get c

/-- Channel Controller `c`. -/
def Device.ctl (d : Device) (c : Chan) : Controller := (d.chans.get c).ctl

/-- Group `g`. -/
def Device.group (d : Device) (g : Grp) : Group := d.groups.get g

/-- Change channel `c`. -/
def modChan (c : Chan) (f : Channel → Channel) (d : Device) : Device :=
  { d with chans := d.chans.set c (f (d.chans.get c)) }

/-- Change Channel Controller `c`. -/
def modCtl (c : Chan) (f : Controller → Controller) (d : Device) : Device :=
  modChan c (fun k => { k with ctl := f k.ctl }) d

/-- Raise an event of channel `c` (R148). -/
def raise (c : Chan) (e : ChanEvent) (d : Device) : Device := modChan c (chanRaise e) d

/-- Change group `g`'s record. -/
def modGroup (g : Grp) (f : Group → Group) (d : Device) : Device :=
  { d with groups := d.groups.set g (f (d.groups.get g)) }

/-- The group whose Members name channel `c`, if any (R116: at most one). -/
def groupOf (d : Device) (c : Chan) : Option Grp := allGroups.find? fun g => inMask (d.group g).members c

/-- The group of channel `c`, where its sweep is RUNNING or STOPPING (R115, R118). -/
def runningGroup (d : Device) (c : Chan) : Option Grp :=
  match groupOf d c with
  | some g => if (d.group g).state = .idle then none else some g
  | none => none

/-! ### What a channel presents -/

/-- The phase a task stands for (R44). -/
def Task.phase (t : Task) : Phase :=
  match t with
  | .idle => .none
  | .check _ => .check
  | .memberCheck => .check
  | .memberWait => .settle
  | .walk _ => .settle
  | .settle _ => .settle
  | .lockwait _ => .lockwait
  | .dwell _ => .dwell
  | .record _ _ => .record
  | .stall _ _ => .stall
  | .selectedRefetch _ _ => .record
  | .singleReturn _ => .record
  | .hold => .hold
  | .wait => .wait
  | .listing _ _ => .wait
  | .candidateFetch => .settle
  | .reapply _ => .record
  | .resettle => .settle
  | .closeFetch => .record

/-- Does the task hold a request for a grant of the RAM Arbiter (R180)? A judged check has read its last entry, and a
stalled channel requests nothing of its own accord (R83). -/
def Task.requests (t : Task) : Bool :=
  match t with
  | .idle => false
  | .check (.reading _ _) => true
  | .check (.judged _ _) => false
  | .memberCheck => false
  | .memberWait => false
  | .walk _ => true
  | .settle _ => false
  | .lockwait _ => false
  | .dwell _ => false
  | .record _ _ => true
  | .stall _ _ => false
  | .selectedRefetch _ _ => true
  | .singleReturn _ => true
  | .hold => false
  | .wait => false
  | .listing _ _ => true
  | .candidateFetch => true
  | .reapply _ => true
  | .resettle => false
  | .closeFetch => true

/-- The point under way: the entry's copy, and whether counting has been opened (R53). -/
def Task.underWay (t : Task) : Option (Copy × Bool) :=
  match t with
  | .settle p => some (p, false)
  | .lockwait p => some (p, false)
  | .dwell p => some (p, true)
  | .idle | .check _ | .memberCheck | .memberWait | .walk _ | .record _ _ | .stall _ _ | .selectedRefetch _ _
  | .singleReturn _ | .hold | .wait | .listing _ _ | .candidateFetch | .reapply _ | .resettle | .closeFetch => none

/-- The record composed and not yet written or discarded (R80). -/
def Task.pendingRecord (t : Task) : Option Record :=
  match t with
  | .record r _ => some r
  | .stall r _ => some r
  | .idle | .check _ | .memberCheck | .memberWait | .walk _ | .settle _ | .lockwait _ | .dwell _ | .selectedRefetch _ _
  | .singleReturn _ | .hold | .wait | .listing _ _ | .candidateFetch | .reapply _ | .resettle | .closeFetch => none

/-- Is the channel running a plan check, solo or as a member (R10, R120)? -/
def Task.inCheck (t : Task) : Bool := t.phase = .check

/-- The low 16 bits of the Millisecond Counter (R160). -/
def stamp (d : Device) : BitVec 16 := d.time.ms.setWidth 16

/-- A preload is in progress in HEADER and in BLOCKS (R168). -/
def preloadActive (d : Device) : Bool := d.preload.state = .header || d.preload.state = .blocks

/-! ### The RAM Arbiter (R180) -/

/-- Does group `g` have a check read, a walk fetch or a re-fetch waiting? A halting group makes none (R130). -/
def groupWaiting (d : Device) (g : Grp) : Bool :=
  !(d.group g).halting &&
    match (d.group g).task with
    | .idle => false
    | .check (.reading _ _) => true
    | .check (.judged _ _) => false
    | .walk _ => true
    | .point => false
    | .selectedRefetch _ => true

/-- The group the Pace Controller requests for next: the first waiting one in the rotation A to D after the one it last
served. -/
def nextGroup (d : Device) : Option Grp :=
  [1, 2, 3, 4].findSome? fun k =>
    let g : Grp := ⟨(d.arbiter.lastGroup.val + k) % 4, Nat.mod_lt _ (by decide)⟩
    if groupWaiting d g then some g else none

/-- Keep the Pace Controller's one request: a request held for a group that still waits stays, and otherwise the rotation
names the next. -/
def paceRefresh (d : Device) : Device :=
  match d.arbiter.paceRequest with
  | some g =>
    if groupWaiting d g then d else { d with arbiter := { d.arbiter with paceRequest := nextGroup d } }
  | none => { d with arbiter := { d.arbiter with paceRequest := nextGroup d } }

/-- Channel `c` as a requester. -/
def reqChan (c : Chan) : Requester := ⟨c.val, by omega⟩

/-- The Pace Controller as a requester. -/
def reqPace : Requester := 8

/-- The Preload Controller as a requester. -/
def reqPreload : Requester := 9

/-- Does a channel hold a request? Its task's own, or the fill that a handback handed to a stalled channel asks for (R83). -/
def channelRequests (k : Controller) : Bool :=
  match k.task with
  | .stall _ _ => k.handbacks != 0
  | t => t.requests

/-- Does a requester hold a request? -/
def requesting (d : Device) (r : Requester) : Bool :=
  if h : r.val < 8 then channelRequests (d.ctl ⟨r.val, h⟩)
  else if r.val = 8 then d.arbiter.paceRequest.isSome
  else
    match d.preload.work with
    | .writing _ => true
    | .idle => false
    | .transfer _ => false
    | .retryWait _ => false
    | .between => false

/-- Is a turn of the rotation still to come for a channel's fetch or ending write made within its own happening? -/
def turnDue (a : Arbiter) (r : Requester) : Bool := if h : r.val < 8 then a.turns.get ⟨r.val, h⟩ != 0 else false

/-- The first that waits in the rotation after the part requester last served: a request, or a turn to come. -/
def firstWaiting (requests : Requester → Bool) (a : Arbiter) : Option Requester :=
  [1, 2, 3, 4, 5, 6, 7, 8, 9, 10].findSome? fun k =>
    let r : Requester := ⟨(a.lastServed.val + k) % 10, Nat.mod_lt _ (by decide)⟩
    if turnDue a r || requests r then some r else none

/-- One of channel `c`'s turns has come: the channel is the part requester last served. -/
def passTurn (c : Chan) (a : Arbiter) : Arbiter :=
  { a with lastServed := reqChan c, turns := a.turns.set c (a.turns.get c - 1) }

/-- The turns that come before the first request that waits. -/
def passTurns (requests : Requester → Bool) (n : Nat) (a : Arbiter) : Arbiter :=
  match n with
  | 0 => a
  | n + 1 =>
    match firstWaiting requests a with
    | some r =>
      if h : r.val < 8 then
        if a.turns.get ⟨r.val, h⟩ = 0 then a else passTurns requests n (passTurn ⟨r.val, h⟩ a)
      else a
    | none => a

/-- How many turns are to come in all. -/
def turnsLeft (a : Arbiter) : Nat := (allChans.map fun c => a.turns.get c).sum

/-- The arbiter once every turn has been passed that comes before the first request that waits. -/
def settled (d : Device) : Arbiter := passTurns (requesting d) (turnsLeft d.arbiter) d.arbiter

/-- The part requester the arbiter serves next: the first waiting one in the rotation after the one it last served. -/
def arbiterPick (d : Device) : Option Requester := firstWaiting (requesting d) (settled d)

/-- Is the next part grant the requester's? -/
def granted (d : Device) (r : Requester) : Bool := arbiterPick d = some r

/-- A part grant has been served to a requester. -/
def served (r : Requester) (d : Device) : Device := { d with arbiter := { settled d with lastServed := r } }

/-- Channel `c` makes a fetch or an ending write within a happening of its own, which is taken whole (R65, R84, R136, R137). Its
turn comes in the rotation all the same, behind the part requesters that wait ahead of it (R180; assumption log 18). -/
def takeTurn (c : Chan) (d : Device) : Device :=
  let d1 : Device := { d with arbiter := { d.arbiter with turns := d.arbiter.turns.set c (d.arbiter.turns.get c + 1) } }
  { d1 with arbiter := settled d1 }

/-- The Pace Controller's request for a group has been served: the group is the last served, and the request is let go. -/
def servedGroup (g : Grp) (d : Device) : Device :=
  { d with arbiter := { settled d with lastServed := reqPace, lastGroup := g, paceRequest := none } }

/-! ### Command outcomes (R137) -/

/-- Refuse a command: Last Command, Last Status and CMD_REFUSED, and nothing else. -/
def refuse (code : BitVec 8) (st : LastStatus) (c : Chan) (d : Device) : Device :=
  raise c .cmdRefused (modCtl c (fun k => { k with lastCommand := code, lastStatus := st }) d)

/-- Take a command: Last Command and Last Status. -/
def accept (code : BitVec 8) (st : LastStatus) (c : Chan) (d : Device) : Device :=
  modCtl c (fun k => { k with lastCommand := code, lastStatus := st }) d

/-! ### Writes that are not stored (R147, R176) -/

/-- Raise BAD_WRITE: the Write Fault register takes the cause and the window offset. -/
def badWrite (cause : WriteFault) (offset : Nat) (d : Device) : Device :=
  devRaise .badWrite { d with host := { d.host with fault := cause, faultOffset := BitVec.ofNat 16 offset } }

/-- Drop a host write made during a preload: counted, holding at 65535, and BAD_WRITE raised with cause PRELOAD. -/
def dropWrite (offset : Nat) (d : Device) : Device :=
  badWrite .preload offset
    { d with preload := { d.preload with dropped := if d.preload.dropped = 65535 then 65535 else d.preload.dropped + 1 } }

/-- Make a host write, or drop it while a preload is in progress. -/
def unlessPreload (offset : Nat) (f : Device → Device) (d : Device) : Device :=
  if preloadActive d then dropWrite offset d else f d

/-- A happening inside the part: nothing happens while the part is held in reset (R166). -/
def happening (f : Device → Device) (d : Device) : Device := if d.held then d else f d

/-- A host access: it waits while the part is held in reset (R179). -/
def hostAccess (a : Access) (f : Device → Device) (d : Device) : Device :=
  if d.held then { d with host := { d.host with waiting := d.host.waiting ++ [a] } } else f d

/-! ### Running a meaning -/

/-- A meaning that changes the part and leaves the queue of commands alone. -/
def State.act (s : State) (f : Device → Device) : Host.Outcome State Fault Refusal :=
  .next { s with dev := f s.dev }

end Sys2Proof.Machine
end

