-- ==== Sys2Proof/Machine/Operands.lean ====
section
/-! DEFINITION. Operand forms: the fields of a plan entry, the codes a host write carries and how each is stored, the
channel commands, and the words of the serial memory image. -/

namespace Sys2Proof.Machine

open Sys2Proof

/-! ### Plan entries (R2, R184) -/

/-- The entry four bus words spell (R184). -/
def entryOf (w0 w1 w2 w3 : BusWord) : Entry :=
  { settings :=
      { drive := w0.extractLsb' 0 5, emphasis := w0.extractLsb' 5 4, phase := w1.extractLsb' 0 6,
        threshold := w1.extractLsb' 8 5 }
    dwellClass := ⟨(w0.extractLsb' 9 3).toNat, (w0.extractLsb' 9 3).isLt⟩
    skip := w0.getLsbD 15
    limit := w2
    tag := w3 }

/-- Plan entry `i` as the RAM holds it: all four bus words in one grant (R1). -/
def readEntry (d : Device) (i : Idx) : Entry :=
  entryOf (ramWord d (entryAddr i)) (ramWord d (entryAddr i + 2)) (ramWord d (entryAddr i + 4)) (ramWord d (entryAddr i + 6))

/-- An entry is in range when each of its four settings lies within its legal range (R2). -/
def settingsInRange (x : Settings) : Bool :=
  decide (x.drive.toNat ≤ 20) && decide (x.emphasis.toNat ≤ 9)
    && decide (-24 ≤ x.phase.toInt) && decide (x.phase.toInt ≤ 24)
    && decide (-12 ≤ x.threshold.toInt) && decide (x.threshold.toInt ≤ 12)

/-- The early-stop limit, absent when the field is 0 (R4). -/
def earlyStopLimit (e : Entry) : Option Nat := if e.limit = 0 then none else some e.limit.toNat

/-- The length of a dwell class in units of 1024 lane words (R6). -/
def classLength (d : Device) (k : Fin 8) : Nat := (d.dwell.get k).toNat

/-- Is a plan index within a window (R9)? -/
def inWindow (w : Window) (i : Nat) : Bool := decide (w.first.val ≤ i) && decide (i ≤ w.last.val)

/-! ### Register codes -/

/-- The LFSR pattern of a 2-bit code (R183, Fixed Pattern). -/
def lfsrOf (n : Nat) : Lfsr :=
  match n with
  | 0 => .l7
  | 1 => .l15
  | 2 => .l23
  | _ => .l31

/-- The Generator Mode a written value stores: a code that names no mode stores OFF (R21, R183). -/
def genModeOf (n : Nat) : GenMode :=
  match n with
  | 1 => .lfsr .l7
  | 2 => .lfsr .l15
  | 3 => .lfsr .l23
  | 4 => .lfsr .l31
  | 5 => .user
  | _ => .off

/-- The User Length a written value stores: 1 for 0, 4 for anything above 4 (R21). -/
def userLengthOf (n : Nat) : BitVec 3 := if n = 0 then 1 else if 4 < n then 4 else BitVec.ofNat 3 n

/-- The Checker Mode of a 2-bit code (R183). -/
def checkerModeOf (n : Nat) : CheckerMode :=
  match n with
  | 0 => .auto
  | 1 => .fixed
  | 2 => .user
  | _ => .off

/-- The TX Source a written value stores: a code that names none of the 17 sources stores OFF (R109, R182). -/
def txSourceOf (n : Nat) : TxSource :=
  if h : 8 ≤ n ∧ n < 16 then .gen ⟨n - 8, by omega⟩
  else if h : 16 ≤ n ∧ n < 24 then .loop ⟨n - 16, by omega⟩
  else .off

/-- The Lead a written value names: the low four bits, 8 to 15 none (R117). -/
def leadOf (n : Nat) : Option Chan := if h : n % 16 < 8 then some ⟨n % 16, h⟩ else none

/-- The low three bits of a written value as a channel or class number (R93, R112). -/
def low3 (v : BusWord) : Fin 8 := ⟨v.toNat % 8, Nat.mod_lt _ (by decide)⟩

/-! ### Channel commands (R136, R183) -/

/-- The eleven channel commands. -/
inductive Command where
  | enable | disable | startSweep | startTrack | single | apply | stop | abort | clearHalt | clearCounters | resetChannel
  deriving DecidableEq, Repr

/-- The code of a command (R183, offset 0x0100). -/
def commandCode (k : Command) : BitVec 8 :=
  match k with
  | .enable => 0x01
  | .disable => 0x02
  | .startSweep => 0x03
  | .startTrack => 0x04
  | .single => 0x05
  | .apply => 0x06
  | .stop => 0x07
  | .abort => 0x08
  | .clearHalt => 0x09
  | .clearCounters => 0x0A
  | .resetChannel => 0x0B

/-- The command a code names, if any (R137). -/
def commandOf (code : BitVec 8) : Option Command :=
  match code.toNat with
  | 1 => some .enable
  | 2 => some .disable
  | 3 => some .startSweep
  | 4 => some .startTrack
  | 5 => some .single
  | 6 => some .apply
  | 7 => some .stop
  | 8 => some .abort
  | 9 => some .clearHalt
  | 10 => some .clearCounters
  | 11 => some .resetChannel
  | _ => none

/-- The code bits of a Command or Device Command write: the low eight (R136, R142). -/
def codeOf (v : BusWord) : BitVec 8 := v.setWidth 8

/-! ### Words of the serial memory image (R169) -/

/-- The words of a sequence of bytes, the byte at the lower address being the low half. -/
def wordsOf (bs : List Byte) : List BusWord :=
  match bs with
  | lo :: hi :: bs => (hi ++ lo) :: wordsOf bs
  | _ => []

/-- The sum of words modulo 65536 (R172, R173). -/
def wordSum (ws : List BusWord) : BusWord := ws.foldl (fun a w => a + w) 0

/-- Word `n` of a list, 0 beyond its end. -/
def wordAt (ws : List BusWord) (n : Nat) : BusWord := ws.getD n 0

end Sys2Proof.Machine
end

