-- ==== Sys2Proof/Machine/Pattern.lean ====
section
/-! DEFINITION. Pattern generators and checkers (chapter 2): the LFSR recurrence, what a generator emits, and every
transition of a checker with the events it raises and the happenings it hands its Channel Controller. -/

namespace Sys2Proof.Machine

open Sys2Proof

/-! ### The recurrence (R22) -/

/-- Degree n of a mode. -/
def lfsrDegree (p : Lfsr) : Nat :=
  match p with
  | .l7 => 7
  | .l15 => 15
  | .l23 => 23
  | .l31 => 31

/-- Tap a of a mode. -/
def lfsrTap (p : Lfsr) : Nat :=
  match p with
  | .l7 => 6
  | .l15 => 14
  | .l23 => 18
  | .l31 => 28

/-- One bit of the sequence: the exclusive OR of the bits a and n places earlier, shifted in as the newest bit. -/
def lfsrBit (p : Lfsr) (h : LaneWord) : LaneWord :=
  (h <<< 1) ||| (BitVec.ofBool (Bool.xor (h.getLsbD (lfsrTap p - 1)) (h.getLsbD (lfsrDegree p - 1)))).setWidth 32

/-- `k` further bits of the sequence. -/
def lfsrBits (p : Lfsr) (k : Nat) (h : LaneWord) : LaneWord :=
  match k with
  | 0 => h
  | k + 1 => lfsrBits p k (lfsrBit p h)

/-- The next 32 bits of the sequence after `h`, first bit in bit 31 (R22, R31). -/
def lfsrNext (p : Lfsr) (h : LaneWord) : LaneWord := lfsrBits p 32 h

/-! ### Generator (R21 to R26) -/

/-- The idle word (R25). -/
def idleWord : LaneWord := 0x55555555

/-- The user position after `q` in a sequence of length `n` (R23). -/
def nextPosition (n : BitVec 3) (q : Fin 4) : Fin 4 :=
  if h : q.val + 1 < n.toNat ∧ q.val + 1 < 4 then ⟨q.val + 1, h.2⟩ else 0

/-- The user position before `q` in a sequence of length `n` (R35). -/
def priorPosition (n : BitVec 3) (q : Fin 4) : Fin 4 :=
  if q.val = 0 then ⟨(n.toNat - 1) % 4, Nat.mod_lt _ (by decide)⟩ else ⟨q.val - 1, by omega⟩

/-- Start the sequence of the mode now stored: LFSR state all ones, or user position 0 (R22, R23, R26). -/
def genRestart (g : Generator) : Generator :=
  match g.mode with
  | .off => g
  | .lfsr _ => { g with history := BitVec.allOnes 32 }
  | .user => { g with position := 0 }

/-- The word of the mode, before INVERT (R22, R23, R25). -/
def genModeWord (g : Generator) : LaneWord :=
  match g.mode with
  | .off => idleWord
  | .lfsr p => lfsrNext p g.history
  | .user => g.userWords.get g.position

/-- The word a generator emits in this word time, its channel OFF or not (R24, R25). -/
def genWord (chanOff : Bool) (g : Generator) : LaneWord :=
  if chanOff then idleWord else if g.invert then ~~~(genModeWord g) else genModeWord g

/-- The generator after emitting one word: no advance while its channel is OFF (R25); INVERT changes nothing (R24). -/
def genAdvance (chanOff : Bool) (g : Generator) : Generator :=
  if chanOff then g
  else
    match g.mode with
    | .off => g
    | .lfsr p => { g with history := lfsrNext p g.history }
    | .user => { g with position := nextPosition g.userLength g.position }

/-! ### Checker transitions (R27 to R30) -/

/-- What one happening does at a checker: its new state, the events it raises in order, and what it hands its Channel
Controller, in order (R39, R42). -/
structure CheckerStep where
  chk : Checker
  events : List ChanEvent
  handed : List Handed
  deriving DecidableEq, Repr

/-- A happening that changes nothing at the checker. -/
def chkStay (k : Checker) : CheckerStep := { chk := k, events := [], handed := [] }

/-- A fresh search (R30). -/
def chkFresh (k : Checker) : Checker :=
  { k with state := .search, previous := none, counts := Eight.build fun _ => 0 }

/-- Close point counting: the counters keep their values (R38, R39). -/
def chkClose (k : Checker) : Checker := { k with point := { k.point with target := none } }

/-- Open point counting for a dwell (R38, R52). -/
def chkOpen (p : Copy) (k : Checker) : Checker :=
  { k with point := { PointCounters.zero with target := some (p.dwellWords, p.limit) } }

/-- Leave OFF: by the report of the selected lane, unless Checker Mode is OFF (R28). -/
def chkLeaveOff (report : Bool) (k : Checker) : Checker :=
  if k.mode = .off then k else if report then chkFresh k else { k with state := .nosignal }

/-- Enter OFF: no event; the rest of the Checker Status and the counters stay (R27, R28, R38, R40). A REFCLK return that has
been handed and not yet taken is withdrawn: the manual is silent on it, and the model lets the departure from OFF read the
report anew (assumption log 41). -/
def chkEnterOff (k : Checker) : Checker := { chkClose k with state := .off, refReturn := false }

/-- LOCKED to a fresh search: UNLOCK raised and lock lost handed, counting closed (R30, R39). -/
def chkUnlock (k : Checker) : CheckerStep :=
  { chk := chkFresh (chkClose k), events := [.unlock], handed := [.lockLost] }

/-- SEARCH or LOCKED to NOSIGNAL: SIGNAL_LOSS raised and signal lost handed, counting closed (R29, R39). -/
def chkLoseSignal (k : Checker) : CheckerStep :=
  { chk := { chkClose k with state := .nosignal }, events := [.signalLoss], handed := [.signalLost] }

/-- The selected lane's report changes (R29). -/
def chkReport (present : Bool) (k : Checker) : CheckerStep :=
  match k.state, present with
  | .off, _ => chkStay k
  | .nosignal, true => { chk := chkFresh k, events := [.signalBack], handed := [] }
  | .nosignal, false => chkStay k
  | .search, true => chkStay k
  | .search, false => chkLoseSignal k
  | .locked, true => chkStay k
  | .locked, false => chkLoseSignal k

/-- A write that restarts the search: Checker Mode other than OFF, Fixed Pattern, Fixed Polarity, or a user word in USER
(R30). -/
def chkRestart (k : Checker) : CheckerStep :=
  match k.state with
  | .off => chkStay k
  | .nosignal => chkStay k
  | .search => { chk := chkFresh k, events := [], handed := [] }
  | .locked => chkUnlock k

/-- A break in the stream, with the report then standing: a change of source, or the return of REFCLK (R30). -/
def chkBreak (report : Bool) (k : Checker) : CheckerStep :=
  match k.state, report with
  | .off, _ => chkStay k
  | .nosignal, true => { chk := chkFresh k, events := [.signalBack], handed := [] }
  | .nosignal, false => chkStay k
  | .search, true => { chk := chkFresh k, events := [], handed := [] }
  | .search, false => chkLoseSignal k
  | .locked, true => chkUnlock k
  | .locked, false => chkLoseSignal k

/-- What a checker hands its Channel Controller where the channel itself enters OFF: lock lost, from LOCKED (R39). -/
def handedAtOff (k : Checker) : List Handed := if k.state = .locked then [.lockLost] else []

/-- A write of Checker Mode OFF while the channel is not OFF (R28). -/
def chkModeOff (k : Checker) : CheckerStep :=
  match k.state with
  | .off => chkStay k
  | .nosignal => { chk := chkEnterOff k, events := [], handed := [] }
  | .search => { chk := chkEnterOff k, events := [], handed := [] }
  | .locked => { chk := chkEnterOff k, events := [.unlock], handed := [.lockLost] }

/-- A write of Checker Mode, its value already stored, while the channel is not OFF (R28, R30). -/
def chkModeWritten (report : Bool) (k : Checker) : CheckerStep :=
  if k.mode = .off then chkModeOff k
  else if k.state = .off then { chk := chkLeaveOff report k, events := [], handed := [] }
  else chkRestart k

/-! ### Search and lock (R31 to R35) -/

/-- The pattern of search candidate `i`: lowest degree first (R33). -/
def candidatePattern (i : Fin 8) : Lfsr := lfsrOf (i.val / 2)

/-- The polarity of search candidate `i`: normal before inverted (R33). -/
def candidateInverted (i : Fin 8) : Bool := i.val % 2 = 1

/-- The word a candidate predicts after `previous` (R31). An inverted candidate reads the received word complemented, as the
reference of its lock does (R33, R36), and predicts the complement of the next 32 bits (assumption log 7). -/
def predict (p : Lfsr) (inverted : Bool) (previous : LaneWord) : LaneWord :=
  if inverted then ~~~(lfsrNext p (~~~previous)) else lfsrNext p previous

/-- Is search candidate `i` kept in the checker's mode: all eight in AUTO, the Fixed Pattern in the Fixed Polarity in FIXED
(R31, R34)? -/
def candidateKept (k : Checker) (i : Fin 8) : Bool :=
  match k.mode with
  | .auto => true
  | .fixed => candidatePattern i = k.fixedPattern && candidateInverted i = k.fixedInverted
  | .user => false
  | .off => false

/-- The counts after a word that is compared with the predictions from `previous` (R31). -/
def lfsrCounts (k : Checker) (previous w : LaneWord) : Eight Nat :=
  Eight.build fun i =>
    if candidateKept k i && predict (candidatePattern i) (candidateInverted i) previous = w then k.counts.get i + 1 else 0

/-- The expected form of user word `q` (R35). -/
def userForm (g : Generator) (inverted : Bool) (q : Fin 4) : LaneWord :=
  if inverted then ~~~(g.userWords.get q) else g.userWords.get q

/-- The counts of the user positions after a word (R35). -/
def userCounts (g : Generator) (k : Checker) (w : LaneWord) : Eight Nat :=
  Eight.build fun i =>
    if h : i.val < 4 ∧ i.val < g.userLength.toNat then
      if w = userForm g k.fixedInverted ⟨i.val, h.1⟩ then
        k.counts.get ⟨(priorPosition g.userLength ⟨i.val, h.1⟩).val, by omega⟩ + 1
      else 0
    else 0

/-- The winner: the lowest-numbered candidate whose count has reached 16 (R33, R35). -/
def lockWinner (counts : Eight Nat) : Option (Fin 8) := allChans.find? fun i => decide (16 ≤ counts.get i)

/-- A lock: LOCKED, LOCK raised, lock gained handed (R33, R39). -/
def chkLock (k : Checker) : CheckerStep :=
  { chk := { k with state := .locked, errorRun := 0 }, events := [.lock], handed := [.lockGained] }

/-- A word in SEARCH in AUTO or FIXED (R30 to R34). -/
def searchLfsr (w : LaneWord) (k : Checker) : CheckerStep :=
  if w = 0 ∨ w = BitVec.allOnes 32 then
    chkStay { k with counts := Eight.build fun _ => 0, previous := some w }
  else
    match k.previous with
    | none => chkStay { k with previous := some w }
    | some p =>
      let k' : Checker := { k with counts := lfsrCounts k p w, previous := some w }
      match lockWinner k'.counts with
      | none => chkStay k'
      | some i =>
        chkLock { k' with
          detected := .lfsr (candidatePattern i), detectedInverted := candidateInverted i, userPosition := 0,
          reference := if candidateInverted i then ~~~w else w }

/-- A word in SEARCH in USER (R35). -/
def searchUser (g : Generator) (w : LaneWord) (k : Checker) : CheckerStep :=
  let k' : Checker := { k with counts := userCounts g k w, previous := some w }
  match lockWinner k'.counts with
  | none => chkStay k'
  | some i =>
    let q : Fin 4 := ⟨i.val % 4, Nat.mod_lt _ (by decide)⟩
    chkLock { k' with
      detected := .user, detectedInverted := k.fixedInverted, userPosition := q, expected := nextPosition g.userLength q }

/-! ### Locked (R36 to R40) -/

/-- The word the locked checker expects (R36). -/
def expectedWord (g : Generator) (k : Checker) : LaneWord :=
  match k.detected with
  | .user => userForm g k.detectedInverted k.expected
  | .lfsr p => if k.detectedInverted then ~~~(lfsrNext p k.reference) else lfsrNext p k.reference
  | .none => 0

/-- The reference or expected position after one word (R36). -/
def advanceReference (g : Generator) (k : Checker) : Checker :=
  match k.detected with
  | .user => { k with expected := nextPosition g.userLength k.expected }
  | .lfsr p => { k with reference := lfsrNext p k.reference }
  | .none => k

/-- The bit positions in which two words differ (R36). -/
def bitErrors (x y : LaneWord) : Nat := ((List.range 32).filter fun i => (x ^^^ y).getLsbD i).length

/-- Add to a counter, holding at its maximum (R40). -/
def satAdd {w : Nat} (x : BitVec w) (n : Nat) : BitVec w := BitVec.ofNat w (min (2 ^ w - 1) (x.toNat + n))

/-- The monitor counters after one compared word (R40). -/
def monitorCount (e : Nat) (m : Monitor) : Monitor :=
  { words := satAdd m.words 1, bits := satAdd m.bits e, errored := satAdd m.errored (if e = 0 then 0 else 1) }

/-- The point counters after one compared word, while counting is open (R38). -/
def pointCount (e : Nat) (p : PointCounters) : PointCounters :=
  { p with
    words := p.words + 1, bits := p.bits + e, errored := p.errored + (if e = 0 then 0 else 1),
    firstError := if p.firstError = none ∧ e ≠ 0 then some p.words else p.firstError }

/-- The closure the checker hands after a word is counted, early stop first (R38). -/
def pointJudge (p : PointCounters) : Option Bool :=
  match p.target with
  | none => none
  | some (n, limit) =>
    match limit with
    | some l => if l ≤ p.bits then some true else if p.words = n then some false else none
    | none => if p.words = n then some false else none

/-- The point counters after one compared word, with the closure it brings (R38). -/
def pointWord (e : Nat) (p : PointCounters) : PointCounters × List Handed :=
  match p.target with
  | none => (p, [])
  | some _ =>
    let p' := pointCount e p
    match pointJudge p' with
    | none => (p', [])
    | some early => ({ p' with target := none }, [.closure early])

/-- A word in LOCKED: compared and counted, the point judged, and lock lost at the 32nd errored word in a row (R36 to R40). -/
def compareWord (g : Generator) (w : LaneWord) (k : Checker) : CheckerStep :=
  let e := bitErrors w (expectedWord g k)
  let pw := pointWord e k.point
  let k' : Checker := { advanceReference g k with
    monitor := monitorCount e k.monitor, point := pw.1, errorRun := if e = 0 then 0 else k.errorRun + 1 }
  if 32 ≤ k'.errorRun then
    let u := chkUnlock k'
    { chk := u.chk, events := u.events, handed := pw.2 ++ u.handed }
  else { chk := k', events := [], handed := pw.2 }

/-- A received word at a checker, by its state (R28 to R36). -/
def chkWord (g : Generator) (w : LaneWord) (k : Checker) : CheckerStep :=
  match k.state with
  | .off => chkStay k
  | .nosignal => chkStay k
  | .search =>
    match k.mode with
    | .auto => searchLfsr w k
    | .fixed => searchLfsr w k
    | .user => searchUser g w k
    | .off => chkStay k
  | .locked => compareWord g w k

/-! ### Checkers in the part -/

/-- Make a happening of checker `c`: its state changes, its events are raised on the channel, and what it hands waits in the
channel's inbox. -/
def atChecker (c : Chan) (f : Checker → CheckerStep) (d : Device) : Device :=
  modChan c (fun k =>
    let o := f k.chk
    chanRaiseAll o.events { k with chk := o.chk, ctl := { k.ctl with inbox := k.ctl.inbox ++ o.handed } }) d

/-- What the signal detector of receive lane `r` reports: an unpowered lane reports absent (R20). -/
def laneReport (d : Device) (r : Chan) : Bool := (d.ctl r).state ≠ .off && d.lanes.activity.get r

/-- The report of the lane the matrix selects for checker `c`. -/
def sourceReport (d : Device) (c : Chan) : Bool := laneReport d (d.lanes.checkerSource.get c)

/-- A change of lane `r`'s report reaches every checker that watches the lane, unless REFCLK is absent (R20, R29, R30). -/
def reportChanged (r : Chan) (present : Bool) (d : Device) : Device :=
  if d.time.present then
    forChans (fun c d => if d.lanes.checkerSource.get c = r then atChecker c (chkReport present) d else d) d
  else d

/-- Front end `c` takes a set of settings in one happening (R5). -/
def setFront (c : Chan) (x : Settings) (d : Device) : Device := modChan c (fun k => { k with front := x }) d

end Sys2Proof.Machine
end

