-- ==== Sys2Proof/Machine/Plan.lean ====
section
/-! DEFINITION. Plan checks and fetches (chapter 1): how an entry is judged by a check, how a fetch validates it, and the
Plan Check register. Shared by solo and group sweeps. -/

namespace Sys2Proof.Machine

open Sys2Proof

/-! ### The plan check (R10, R11) -/

/-- The condition on which a non-SKIP entry ends the check, in the order of R11; a SKIP entry is passed over (R3). -/
def judgeEntry (d : Device) (e : Entry) (previous : Option Settings) : Option CheckResult :=
  if e.skip then none
  else if !settingsInRange e.settings then some .field
  else if classLength d e.dwellClass = 0 then some .dwellUnset
  else if previous = some e.settings then some .duplicate
  else none

/-- The check of a window at its start: ORDER before any entry is read (R11). -/
def checkStart (w : Window) : CheckProgress :=
  if w.last < w.first then .judged .order w.first else .reading w.first none

/-- The check after it has read and judged entry `next` (R11): a failure there, EMPTY or PASS at WinLast, or the next
entry. -/
def checkRead (d : Device) (w : Window) (next : Idx) (previous : Option Settings) : CheckProgress :=
  let e := readEntry d next
  match judgeEntry d e previous with
  | some r => .judged r next
  | none =>
    let previous' := if e.skip then previous else some e.settings
    if w.last.val ≤ next.val then
      match previous' with
      | none => .judged .empty w.last
      | some _ => .judged .pass w.last
    else .reading (idxOf (next.val + 1)) previous'

/-- The Plan Check register of channel `c` while a check stands at `p` (R14): RUNNING with the next entry to be read, or
with a free value where the last entry has been read and no next one exists (assumption log 2). -/
def showProgress (c : Chan) (p : CheckProgress) (d : Device) : Device :=
  match p with
  | .reading next _ => modCtl c (fun k => { k with planCheck := { result := .running, index := next, fetch := false } }) d
  | .judged _ _ =>
    modCtl c (fun k =>
        { k with planCheck := { result := .running, index := Config.noNextIndex d.free, fetch := false } })
      { d with free := d.free + 1 }

/-- The Plan Check register takes a result of the check (R14). -/
def showResult (c : Chan) (r : CheckResult) (i : Idx) (d : Device) : Device :=
  modCtl c (fun k => { k with planCheck := { result := r, index := i, fetch := false } }) d

/-- The check is ended early: ABANDONED, the index that of the next entry (R13, R14). A check judged ORDER has read no entry and
would have read none, so R14 names no index for it: the register keeps WinFirst, the model's choice (assumption log 30). -/
def showAbandoned (c : Chan) (d : Device) : Device :=
  modCtl c (fun k => { k with planCheck := { k.planCheck with result := .abandoned, fetch := false } }) d

/-- A fetch failed: reason, index and stage FETCH (R18). -/
def showFetchFailure (c : Chan) (r : CheckResult) (i : Idx) (d : Device) : Device :=
  modCtl c (fun k => { k with planCheck := { result := r, index := i, fetch := true } }) d

/-! ### Fetches (R15 to R17) -/

/-- Validation of an entry read, without the SKIP condition, in the dwell class in use (R16, R17). -/
def validate (d : Device) (i : Idx) (inUse : Fin 8) (e : Entry) : Except CheckResult Copy :=
  if !settingsInRange e.settings then .error .field
  else if classLength d inUse = 0 then .error .dwellUnset
  else
    .ok { index := i, settings := e.settings, dwellWords := classLength d inUse * 1024, limit := earlyStopLimit e, tag := e.tag }

/-- A directed fetch, in the entry's own dwell class or in the class given (R7, R16). -/
def directedFetch (d : Device) (i : Idx) (inUse : Option (Fin 8)) : Except CheckResult Copy :=
  let e := readEntry d i
  if e.skip then .error .skipped else validate d i (inUse.getD e.dwellClass) e

/-- What one read of a walk fetch finds at entry `next` (R15). -/
inductive WalkRead where
  /-- SKIP: the walk goes on. -/
  | passed
  /-- SKIP clear: the point's entry, or its failure. -/
  | found (r : Except CheckResult Copy)

/-- One read of a walk fetch (R15). -/
def walkRead (d : Device) (next : Idx) : WalkRead :=
  let e := readEntry d next
  if e.skip then .passed else .found (validate d next e.dwellClass e)

/-- Where a walk stands that goes on from index `start`: at its next entry, or the window is done, as for a start above
WinLast and the start of 128 after index 127 (R15). -/
def walkFrom (w : Window) (start : Nat) : Option Idx := if w.last.val < start then none else some (idxOf start)

end Sys2Proof.Machine
end

