-- ==== Sys2Proof/Machine/Ring.lean ====
section
/-! DEFINITION. Result rings (chapter 4): the words of a record, the fill, discards and ending writes. -/

namespace Sys2Proof.Machine

open Sys2Proof

/-! ### Words of a record (R184) -/

/-- The low bus word of a count. -/
def lowWord (n : Nat) : BusWord := BitVec.ofNat 16 n

/-- The high bus word of a count. -/
def highWord (n : Nat) : BusWord := BitVec.ofNat 16 (n / 65536)

/-- STATUS of a POINT record (R91, R184). -/
def pointCode (o : PointOutcome) : Nat :=
  match o with
  | .complete => 1
  | .earlyStop => 2
  | .noLock => 3
  | .lockLost => 4
  | .signalLost => 5
  | .refLost => 6
  | .invalidEntry => 7
  | .aborted => 8
  | .ejected => 9

/-- STATUS of a SUMMARY record (R91, R184); also the code of a group's Last Outcome (R182). -/
def sweepCode (o : SweepOutcome) : Nat :=
  match o with
  | .selected => 1
  | .noneUsable => 2
  | .aborted => 3
  | .halted => 4

/-- The code of a Halt Cause (R183, R184). -/
def haltCode (h : HaltCause) : Nat :=
  match h with
  | .none => 0
  | .signal => 1
  | .plan => 2
  | .refclk => 3
  | .trackFail => 4

/-- ORIGIN of a record (R184). -/
def recordOrigin (o : Origin) : Nat :=
  match o with
  | .none => 0
  | .sweep => 1
  | .track => 2
  | .single => 3

/-- The control word a fill writes: OWN = HOST, WRAP and IRQ as read, the rest from the record, bits 15–13 zero (R76, R79,
R184). -/
def controlWord (r : Record) (wrap irq : Bool) : BusWord :=
  let flags := (if wrap then 2 else 0) + (if irq then 4 else 0)
  match r with
  | .point p =>
    BitVec.ofNat 16
      (flags + 8 * 1 + 32 * recordOrigin p.origin + (if p.group then 128 else 0) + (if p.firstError.isSome then 256 else 0)
        + 512 * pointCode p.outcome)
  | .summary y => BitVec.ofNat 16 (flags + 8 * 2 + 32 * 1 + (if y.group then 128 else 0) + 512 * sweepCode y.outcome)
  | .move _ => BitVec.ofNat 16 (flags + 8 * 3 + 32 * 2 + 512 * 1)

/-- The 15 body words of a record; words its kind does not use are 0 (R80, R184). -/
def bodyWords (r : Record) : List BusWord :=
  match r with
  | .point p =>
    [BitVec.ofNat 16 (p.index.val + 256 * p.seq.toNat), lowWord p.words, highWord p.words, lowWord p.bits, highWord p.bits,
      lowWord p.errored, highWord p.errored, lowWord (p.firstError.getD 0), highWord (p.firstError.getD 0), p.tag, p.stamp,
      0, 0, 0, 0]
  | .summary y =>
    [BitVec.ofNat 16 (y.selected.val + 256 * y.seq.toNat), BitVec.ofNat 16 (y.policy.toNat + 256 * haltCode y.cause),
      lowWord y.measured, lowWord y.usable, lowWord y.runFirst.val, lowWord y.runLength, y.stamp, 0, 0, 0, 0, 0, 0, 0, 0]
  | .move m =>
    [BitVec.ofNat 16 (m.fromIndex.val + 256 * m.toIndex.val), lowWord m.anchor.val, lowWord m.fromErrors,
      highWord m.fromErrors, lowWord m.toErrors, highWord m.toErrors, m.stamp, 0, 0, 0, 0, 0, 0, 0, 0]

/-! ### The fill (R78, R79, R92) -/

/-- The offset of the descriptor at channel `c`'s fill position. -/
def fillAddr (d : Device) (c : Chan) : Nat := ringAddr c (d.ctl c).fillPosition

/-- The control word at channel `c`'s fill position. -/
def fillControl (d : Device) (c : Chan) : BusWord := ramWord d (fillAddr d c)

/-- Does a control word show OWN = PART? -/
def ownPart (w : BusWord) : Bool := w.getLsbD 0

/-- WRAP of a control word. -/
def wrapFlag (w : BusWord) : Bool := w.getLsbD 1

/-- IRQ of a control word. -/
def irqFlag (w : BusWord) : Bool := w.getLsbD 2

/-- The fill position after a descriptor is filled: on by one, to 0 after WRAP or after position 15 (R78). -/
def nextFill (p : RingPos) (wrap : Bool) : RingPos :=
  if wrap then 0 else ⟨(p.val + 1) % 16, Nat.mod_lt _ (by decide)⟩

/-- Write a record at the fill position, whose control word shows PART: the body words in ascending order, the control word
last, then the advance, and POINT if IRQ was set (R79, R92). -/
def writeRecord (c : Chan) (r : Record) (d : Device) : Device :=
  let w := fillControl d c
  let a := fillAddr d c
  let d1 := writeWord a (controlWord r (wrapFlag w) (irqFlag w)) (writeWords (a + 2) (bodyWords r) d)
  let d2 := modCtl c (fun k => { k with fillPosition := nextFill k.fillPosition (wrapFlag w) }) d1
  if irqFlag w then raise c .point d2 else d2

/-- Discard a record: the Overrun Count goes up, holding at 255, and OVERRUN is raised (R85 to R87). -/
def discardRecord (c : Chan) (d : Device) : Device :=
  raise c .overrun (modCtl c (fun k => { k with overrun := if k.overrun = 255 then 255 else k.overrun + 1 }) d)

/-- An ending write: one fill that never waits (R86), made within the happening that ends the work (R65). It takes one turn of the
channel in the arbiter's rotation. -/
def endingWrite (c : Chan) (r : Record) (d : Device) : Device :=
  takeTurn c (if ownPart (fillControl d c) then writeRecord c r d else discardRecord c d)

/-- An ending write of a record, if there is one. -/
def endingWriteOpt (c : Chan) (r : Option Record) (d : Device) : Device :=
  match r with
  | some r => endingWrite c r d
  | none => d

/-! ### Rest, and raises on a condition -/

/-- A controller that gives up its work and enters `st`: no phase, Origin, Stopping, current index, window or configuration
in force, timer, anchor or candidate list (R46, R65, R73, R96, R107). -/
def dropWork (st : ChanState) (k : Controller) : Controller :=
  { k with
    state := st, task := .idle, origin := .none, stopping := false, current := none, window := none, force := none,
    prior := none, timer := none, anchor := none, cycle := Cycle.empty, group := none, message := none, report := none }

/-- Return channel `c` to rest in state `st`: work dropped, rest settings, counting closed (R5, R52). -/
def toRest (c : Chan) (st : ChanState) (d : Device) : Device :=
  modChan c (fun k => { k with ctl := dropWork st k.ctl, front := restSettings, chk := chkClose k.chk }) d

/-- Raise an event of channel `c` on a condition. -/
def raiseIf (b : Bool) (c : Chan) (e : ChanEvent) (d : Device) : Device := if b then raise c e d else d

/-! ### Endings, and the host access between their two fills (R86, R180) -/

/-- Does the host wait with a write of a word of ring `c`: is that the command to be taken next? "When the port falls free, a waiting
host access is served before any waiting part requester" (R180). -/
def hostWaits (c : Chan) (waiting : List Instr) : Bool :=
  match waiting with
  | .ringControlWordWrite b _ _ :: _ => b = c
  | .ringBodyWordWrite b _ _ _ :: _ => b = c
  | .registerWrite a _ :: _ => decide (0x0800 + 0x200 * c.val ≤ 2 * a.toNat) && decide (2 * a.toNat < 0x0A00 + 0x200 * c.val)
  | _ => false

/-- How an ending goes on once its records are made: a halt is rest, HALTED with the cause, SWEEP_END where a sweep had begun, and
HALT (R65, R107), and an abort is rest, IDLE, and SWEEP_END where a sweep had begun (R64, R127). -/
def closeWith (k : Closing) (swept : Bool) (c : Chan) (d : Device) : Device :=
  match k with
  | .halt cause reports =>
    raise c .halt
      (raiseIf swept c .sweepEnd
        (modCtl c (fun x => { x with haltCause := cause, haltReport := reports || x.haltReport }) (toRest c .halted d)))
  | .abort => raiseIf swept c .sweepEnd (toRest c .idle d)

/-- An ending (R62, R86): the pending point record, then the summary of a sweep that had begun, then the close. Each record is a grant
of its own, so a waiting host write of the channel's ring, `waits`, is served between the two (R180): the ending then stands
after its first fill until that write has been served (assumption log 18). -/
def endWith (waits : Bool) (point summary : Option Record) (k : Closing) (c : Chan) (d : Device) : Device :=
  let d1 := endingWriteOpt c point d
  match summary with
  | none => closeWith k false c d1
  | some y =>
    if waits && point.isSome then { d1 with ending := some { chan := c, summary := y, closing := k } }
    else closeWith k true c (endingWrite c y d1)

/-- The host's write of ring `c` has been served: an ending of the channel that stands between its fills makes its second, and
closes. -/
def goOnEnding (c : Chan) (d : Device) : Device :=
  match d.ending with
  | some e =>
    if e.chan = c then closeWith e.closing true c (endingWrite c e.summary { d with ending := none }) else d
  | none => d

end Sys2Proof.Machine
end

