-- ==== Sys2Proof/Machine/Sweep.lean ====
section
/-! DEFINITION. The Channel Controller's shared operations (chapters 3 to 5): selection, records, the point cycle, endings
and halts of solo work, the track cycle, and what follows a record. -/

namespace Sys2Proof.Machine

open Sys2Proof

/-! ### Selection (R56 to R59) -/

/-- Fold one ended point: step 1 breaks the run where the walk passed over an index; then Best, the runs, the counts and
Last Point (R56 to R58). The same fold serves a group point with its sums (R124). -/
def foldPoint (i : Idx) (usable passes : Bool) (bits words : Nat) (x : Selection) : Selection :=
  let broken : Bool :=
    match x.lastPoint with
    | some l => l.val + 1 != i.val
    | none => false
  let run := if broken then 0 else x.runLength
  let best : Option Best :=
    if usable then
      match x.best with
      | none => some { index := i, bits := bits, words := words }
      | some b => if bits * b.words < b.bits * words then some { index := i, bits := bits, words := words } else some b
    else x.best
  let runFirst := if passes && run = 0 then i else x.runFirst
  let runLength := if passes then run + 1 else 0
  let longer : Bool := passes && decide (x.longestLength < runLength)
  { best := best, runFirst := runFirst, runLength := runLength,
    longestFirst := if longer then runFirst else x.longestFirst,
    longestLength := if longer then runLength else x.longestLength,
    measured := x.measured + 1, usable := x.usable + (if usable then 1 else 0), lastPoint := some i }

/-- The selection at the end of a sweep; none is NONE_USABLE (R59). -/
def select (policy : BitVec 2) (x : Selection) : Option Idx :=
  if x.usable = 0 then none
  else if policy = 1 ∧ 0 < x.longestLength then some (idxOf (x.longestFirst.val + (x.longestLength - 1) / 2))
  else x.best.map (fun b => b.index)

/-- The configuration in force (R46). A channel in SWEEP or TRACK always holds one. -/
def forceOf (k : Controller) : SweepConfig := k.force.getD SweepConfig.default

/-- The config check (R46, R93). -/
def configOk (x : SweepConfig) : Bool :=
  decide (x.settleTime.toNat ≤ 1023) && x.lockTimeout != 0 && decide (x.policy.toNat < 2)
    && x.track.interval != 0 && decide (x.track.interval.toNat ≤ 60000) && x.track.lookAhead != 0
    && x.track.stepLimit != 0 && x.track.failLimit != 0

/-! ### Records (R53, R61, R88, R89) -/

/-- The POINT record of a point on an entry's copy: the counters where counting had been opened, zeros before DWELL (R53). -/
def pointRecordOf (d : Device) (c : Chan) (p : Copy) (counted : Bool) (o : PointOutcome) : Record :=
  let k := d.chan c
  .point
    { origin := k.ctl.origin, group := k.ctl.group.isSome, index := p.index, seq := k.ctl.seq,
      words := if counted then k.chk.point.words else 0, bits := if counted then k.chk.point.bits else 0,
      errored := if counted then k.chk.point.errored else 0,
      firstError := if counted then k.chk.point.firstError else none, tag := p.tag, stamp := stamp d, outcome := o }

/-- The POINT record of a fetch that failed validation: counts 0, tag 0 (R53). -/
def invalidRecord (d : Device) (c : Chan) (i : Idx) : Record :=
  let k := d.chan c
  .point
    { origin := k.ctl.origin, group := k.ctl.group.isSome, index := i, seq := k.ctl.seq, words := 0, bits := 0, errored := 0,
      firstError := none, tag := 0, stamp := stamp d, outcome := .invalidEntry }

/-- The SUMMARY of a solo sweep (R61). -/
def soloSummary (d : Device) (c : Chan) (o : SweepOutcome) (selected : Idx) (cause : HaltCause) (at_ : BitVec 16) :
    SummaryRecord :=
  let k := d.ctl c
  { group := false, outcome := o, policy := (forceOf k).policy, selected := selected, measured := k.selection.measured,
    usable := k.selection.usable, runFirst := k.selection.longestFirst, runLength := k.selection.longestLength,
    seq := k.seq, cause := cause, stamp := at_ }

/-- The ABORTED or HALTED summary: it replaces a SELECTED or NONE_USABLE summary that is pending, whose figures it keeps
(R62, R86), and is composed afresh otherwise. Its time where an ending had begun, with a summary that waits or with the selected
re-fetch still to come, is the model's choice (R89; assumption log 26). -/
def endingSummary (d : Device) (c : Chan) (o : SweepOutcome) (cause : HaltCause) (at_ : BitVec 16) : Record :=
  match (d.ctl c).task.pendingRecord with
  | some (.summary y) => .summary { y with outcome := o, selected := 0, cause := cause, stamp := at_ }
  | some (.point _) => .summary (soloSummary d c o 0 cause at_)
  | some (.move _) => .summary (soloSummary d c o 0 cause at_)
  | none => .summary (soloSummary d c o 0 cause at_)

/-- The pending point record of an ending (R62, R106, R107): of the point the happening ends with outcome `under` (none where
no record is composed, R126), or a record not yet written; a pending summary is not one. Under Record Mode MOVES a candidate
under way makes none. -/
def endingPoint (d : Device) (c : Chan) (under : Option PointOutcome) : Option Record :=
  let k := d.ctl c
  match k.task.underWay with
  | some (p, counted) =>
    if k.origin = .track ∧ (forceOf k).track.recordMode = .moves then none
    else under.map fun o => pointRecordOf d c p counted o
  | none =>
    match k.task.pendingRecord with
    | some (.point r) => some (.point r)
    | some (.move r) => some (.move r)
    | some (.summary _) => none
    | none => none

/-- Has a sweep begun at the channel: Origin SWEEP, past its check (R48)? -/
def sweepBegun (k : Controller) : Bool := k.origin = .sweep && !k.task.inCheck

/-! ### Leaving work -/

/-- The channel keeps its applied entry, current index and window in force and enters APPLIED: configuration in force and
anchor dropped, Stopping clear (R46, R60, R105). -/
def enterApplied (c : Chan) (d : Device) : Device :=
  modChan c (fun k =>
    { k with
      ctl :=
        { k.ctl with
          state := .applied, task := .idle, origin := .none, stopping := false, force := none, prior := none,
          timer := none, anchor := none, cycle := Cycle.empty, group := none, message := none, report := none }
      chk := chkClose k.chk }) d

/-- Fold the point under way of a solo sweep when it is ended by an ABORT or a halt: measured, not usable (R54, R55). -/
def foldUnderWay (c : Chan) (d : Device) : Device :=
  let k := d.ctl c
  match k.task.underWay with
  | some (p, _) =>
    if k.origin = .sweep then modCtl c (fun k => { k with selection := foldPoint p.index false false 0 0 k.selection }) d
    else d
  | none => d

/-- The end of solo work (R62, R86): the point under way folded, the pending point record, and the summary of a sweep that began. -/
def soloEnd (waits : Bool) (pt : Option Record) (o : SweepOutcome) (cause : HaltCause) (at_ : BitVec 16) (k : Closing) (c : Chan)
    (d : Device) : Device :=
  let d1 := foldUnderWay c d
  endWith waits pt (if sweepBegun (d.ctl c) then some (endingSummary d1 c o cause at_) else none) k c d1

/-- A halt of solo work (R65, R107): ending records, rest, HALTED with the cause, SWEEP_END for a sweep that began, HALT. The
time `at_` of the summary is that of the halt, also where the ending had begun and its selected re-fetch waits, and the time the
ending began where that re-fetch fails (assumption log 26). -/
def haltChannel (waits : Bool) (pt : Option Record) (cause : HaltCause) (at_ : BitVec 16) (c : Chan) (d : Device) : Device :=
  soloEnd waits pt .halted cause at_ (.halt cause false) c d

/-- The ending of a solo sweep by ABORT, DISABLE or RESET_CHANNEL, which the host waits for (R64, R72, R179). The summary's time is
that of this command, also where the ending had begun and its selected re-fetch waits (assumption log 26). -/
def abortSweep (c : Chan) (d : Device) : Device :=
  soloEnd false (endingPoint d c (some .aborted)) .aborted .none (stamp d) .abort c d

/-! ### The point cycle (R49 to R52) -/

/-- Set a controller's task. -/
def setTask (c : Chan) (t : Task) (d : Device) : Device := modCtl c (fun k => { k with task := t }) d

/-- Enter DWELL: point counting opened for the copy (R38, R52). -/
def enterDwell (c : Chan) (p : Copy) (d : Device) : Device :=
  modChan c (fun k => { k with ctl := { k.ctl with task := .dwell p, timer := none }, chk := chkOpen p k.chk }) d

/-- What is still of account on entering LOCKWAIT: the lock that counts is judged there, so a closure, lock gained or lock
lost handed earlier is made nothing of (R50). -/
def keepSignals (l : List Handed) : List Handed := l.filter fun h => h = .signalLost

/-- Enter LOCKWAIT: DWELL at once if the checker is LOCKED, else the lock timer starts (R51). -/
def enterLockwait (c : Chan) (p : Copy) (d : Device) : Device :=
  let d1 := modCtl c (fun k => { k with inbox := keepSignals k.inbox, timer := none }) d
  if (d1.chan c).chk.state = .locked then enterDwell c p d1
  else
    modCtl c (fun k =>
      { k with task := .lockwait p, timer := some { kind := .lock, left := 1000 * (forceOf k).lockTimeout.toNat } }) d1

/-- Start the settle of an applied entry; a Settle Time of 0 ends it in the same happening (R50). -/
def beginSettle (c : Chan) (p : Copy) (d : Device) : Device :=
  let n := (forceOf (d.ctl c)).settleTime.toNat
  let d1 := modCtl c (fun k => { k with task := .settle p, timer := some { kind := .settle, left := n } }) d
  if n = 0 then enterLockwait c p d1 else d1

/-- Apply a fetched copy as the current entry: front end and current index (R49). -/
def applyCurrent (c : Chan) (p : Copy) (d : Device) : Device :=
  modChan c (fun k => { k with front := p.settings, ctl := { k.ctl with current := some p.index } }) d

/-! ### Ending a solo sweep (R59, R60) -/

/-- The ending of a completed window or of STOP: NONE_USABLE with its summary, or the re-fetch of the selected index. -/
def sweepEnding (c : Chan) (d : Device) : Device :=
  let k := d.ctl c
  match select (forceOf k).policy k.selection with
  | none =>
    modChan c (fun x =>
      { x with
        front := restSettings
        ctl :=
          { x.ctl with
            current := none, timer := none,
            task := .record (.summary (soloSummary d c .noneUsable 0 .none (stamp d))) .noneUsable } }) d
  | some i => setTask c (.selectedRefetch i (stamp d)) d

/-- Go on to the next point: the walk fetch from index `start`, or the ending where the window is done (R15, R49). -/
def startWalk (c : Chan) (start : Nat) (d : Device) : Device :=
  match (d.ctl c).window with
  | none => d
  | some w =>
    match walkFrom w start with
    | none => sweepEnding c d
    | some n => setTask c (.walk n) d

/-! ### Tracks (chapter 5) -/

/-- Start a channel's interval timer and enter WAIT with no candidate list (R97, R102). -/
def enterWait (c : Chan) (d : Device) : Device :=
  modCtl c (fun k =>
    { k with
      task := .wait, cycle := Cycle.empty,
      timer := some { kind := .interval, left := 1000 * (forceOf k).track.interval.toNat } }) d

/-- Enter TRACK with the anchor at the current index, on the configuration in force (R94, R95). -/
def enterTrack (c : Chan) (d : Device) : Device :=
  enterWait c
    (modCtl c (fun k =>
      { k with
        state := .track, origin := .track, stopping := false, anchor := k.current, failCount := 0, prior := none,
        group := none, message := none, report := none }) d)

/-- The indices a cycle considers besides the current one, in order, that pass the window and step tests (R98). -/
def candidates (w : Window) (anchor current : Nat) (lookAhead stepLimit : Nat) : List Idx :=
  ([1, 2, 3].filter fun k => decide (k ≤ lookAhead)).flatMap fun k =>
    let below := if k ≤ current then [current - k] else []
    ((below ++ [current + k]).filter fun i =>
      inWindow w i && decide (i ≤ anchor + stepLimit) && decide (anchor ≤ i + stepLimit)).map idxOf

/-- Fix the list and fetch candidate 0 (R98, R99). -/
def fixList (c : Chan) (l : List Idx) (d : Device) : Device :=
  modCtl c (fun k => { k with task := .candidateFetch, cycle := { list := l, position := 0, kept := [] } }) d

/-- The best of the other candidates: the fewest bit errors among those COMPLETE, the earlier of equals (R101). -/
def bestOther (ks : List Kept) : Option Kept :=
  ks.foldl
    (fun b k =>
      if k.complete then
        match b with
        | none => some k
        | some x => if k.bits < x.bits then some k else some x
      else b)
    none

/-- The decision of a cycle (R101). -/
inductive Decision where
  | move (k : Kept)
  | stay
  | noUsable
  deriving DecidableEq, Repr

/-- R101's table on the kept measurements in list order. -/
def decideCycle (hysteresis : Nat) (kept : List Kept) : Decision :=
  match kept with
  | [] => .noUsable
  | cur :: others =>
    match bestOther others with
    | some b => if cur.complete then if b.bits + hysteresis ≤ cur.bits then .move b else .stay else .move b
    | none => if cur.complete then .stay else .noUsable

/-- Take the decision: the fail count, TRACK_FAIL and its halt, or the reapplication fetch (R101, R102, R104). -/
def takeDecision (c : Chan) (d : Device) : Device :=
  let k := d.ctl c
  let cur := k.current.getD 0
  match decideCycle (forceOf k).track.hysteresis.toNat k.cycle.kept with
  | .move b => modCtl c (fun k => { k with task := .reapply b.index, failCount := 0 }) d
  | .stay => modCtl c (fun k => { k with task := .reapply cur, failCount := 0 }) d
  | .noUsable =>
    let d1 := modCtl c (fun k => { k with task := .reapply cur, failCount := k.failCount + 1 }) d
    if (forceOf k).track.failLimit.toNat ≤ k.failCount + 1 then
      haltChannel false none .trackFail (stamp d) c (raise c .trackFail d1)
    else d1

/-- A candidate's record is written or discarded, or none is made: close the cycle, measure the next candidate, or decide
(R100). -/
def afterCandidate (c : Chan) (d : Device) : Device :=
  let k := d.ctl c
  if k.stopping then setTask c .closeFetch d
  else if k.cycle.position + 1 < k.cycle.list.length then
    modCtl c (fun k => { k with task := .candidateFetch, cycle := { k.cycle with position := k.cycle.position + 1 } }) d
  else takeDecision c d

/-- After a reapplication and its MOVE record, if any: the settle, or APPLIED where a STOP was taken (R102, R105). -/
def afterReapply (c : Chan) (d : Device) : Device :=
  let k := d.ctl c
  if k.stopping then enterApplied c d
  else
    let n := (forceOf k).settleTime.toNat
    if n = 0 then enterWait c d
    else modCtl c (fun k => { k with task := .resettle, timer := some { kind := .settle, left := n } }) d

/-! ### What follows a record (R54, R60, R68, R83, R100, R102, R122) -/

/-- After a SINGLE's record: IDLE at rest, or the re-fetch of the prior entry (R68). -/
def afterSingle (c : Chan) (d : Device) : Device :=
  match (d.ctl c).prior with
  | none => toRest c .idle d
  | some q =>
    match q.applied with
    | none => toRest c .idle d
    | some i =>
      modChan c (fun k => { k with ctl := { k.ctl with task := .singleReturn i, timer := none }, chk := chkClose k.chk }) d

/-- After a solo sweep point's record: the ending where a STOP was taken, else the next point (R54). -/
def afterSweepPoint (c : Chan) (d : Device) : Device :=
  let k := d.ctl c
  if k.stopping then sweepEnding c d
  else
    match k.current with
    | none => d
    | some i => startWalk c (i.val + 1) d

/-- After a SELECTED summary: TRACK where Auto-track is set and the channel is solo at that moment, else APPLIED; then
SWEEP_END (R60, R61). A member of a group sweep never tracks (R129). -/
def afterSelected (solo : Bool) (c : Chan) (d : Device) : Device :=
  let track := solo && (forceOf (d.ctl c)).autoTrack && (groupOf d c).isNone
  raise c .sweepEnd (if track then enterTrack c d else enterApplied c d)

/-- Proceed once the pending record has been written or discarded (R83). -/
def proceed (c : Chan) (a : After) (d : Device) : Device :=
  match a with
  | .sweepPoint => afterSweepPoint c d
  | .memberPoint r => modCtl c (fun k => { k with task := .hold, report := some r }) d
  | .selected solo => afterSelected solo c d
  | .noneUsable => raise c .sweepEnd (toRest c .idle d)
  | .single => afterSingle c d
  | .candidate => afterCandidate c d
  | .move => afterReapply c d

/-- The end of a point with an outcome that goes to RECORD (R54, R68, R100, R122): timer cancelled, counting closed (R38),
record composed, and the point folded (solo sweep), reported later (member) or kept for the decision (track). -/
def endPoint (c : Chan) (o : PointOutcome) (d0 : Device) : Device :=
  let k := d0.ctl c
  match k.task.underWay with
  | none => d0
  | some (p, counted) =>
    let x := (d0.chan c).chk.point
    let bits := if counted then x.bits else 0
    let words := if counted then x.words else 0
    let complete : Bool := o = .complete
    let r := pointRecordOf d0 c p counted o
    let d := modChan c (fun k => { k with chk := chkClose k.chk }) d0
    match k.origin with
    | .none => d
    | .single => modCtl c (fun k => { k with timer := none, task := .record r .single }) d
    | .sweep =>
      match k.group with
      | some _ =>
        modCtl c (fun k =>
          { k with timer := none, task := .record r (.memberPoint { outcome := o, bits := bits, words := words }) }) d
      | none =>
        modCtl c (fun k =>
          { k with
            timer := none, task := .record r .sweepPoint,
            selection :=
              foldPoint p.index complete (complete && decide (bits ≤ (forceOf k).passLimit.toNat)) bits words k.selection }) d
    | .track =>
      let d1 := modCtl c (fun k =>
        { k with
          timer := none, task := .record r .candidate,
          cycle :=
            { k.cycle with
              kept := k.cycle.kept ++ [{ index := p.index, complete := complete, bits := bits, words := words }] } }) d
      if (forceOf k).track.recordMode = .all then d1 else afterCandidate c d1

end Sys2Proof.Machine
end

