-- ==== Sys2Proof/Machine/Group.lean ====
section
/-! DEFINITION. The Pace Controller (chapter 6): starting a group, its fold, barrier and endings, ejections, aborts and
halts, and how a member takes what the Pace Controller hands it. -/

namespace Sys2Proof.Machine

open Sys2Proof

/-! ### Figures and members -/

/-- The figures of a group's Selection Record, under its policy, as its members' summaries carry them (R127, R129, R130). -/
def figuresOf (x : Group) : Figures :=
  { policy := (x.force.getD SweepConfig.default).policy, measured := x.selection.measured, usable := x.selection.usable,
    runFirst := x.selection.longestFirst, runLength := x.selection.longestLength }

/-- The SUMMARY of a group member (R129): GRP set, the group's figures, the member's own sequence number, the time now. -/
def memberSummary (d : Device) (c : Chan) (f : Figures) (o : SweepOutcome) (selected : Idx) (cause : HaltCause) : Record :=
  .summary
    { group := true, outcome := o, policy := f.policy, selected := selected, measured := f.measured, usable := f.usable,
      runFirst := f.runFirst, runLength := f.runLength, seq := (d.ctl c).seq, cause := cause, stamp := stamp d }

/-- Is channel `c` taking part in the sweep of group `g`? -/
def takesPart (d : Device) (g : Grp) (c : Chan) : Bool := (d.ctl c).group = some g

/-- Does channel `c` lead group `g`? -/
def leads (d : Device) (g : Grp) (c : Chan) : Bool := (d.group g).lead = some c

/-- Change the controller of every member that is taking part in group `g`'s sweep. -/
def atMembers (g : Grp) (f : Controller → Controller) (d : Device) : Device :=
  forMask (d.group g).members (fun c d => if takesPart d g c then modCtl c f d else d) d

/-- Hand a message to every present member (R121, R127, R129, R130). -/
def handAll (g : Grp) (m : GroupMessage) (d : Device) : Device := atMembers g (fun k => { k with message := some m }) d

/-- Do something at the lead of group `g`, if it has one. -/
def atLead (g : Grp) (f : Chan → Device → Device) (d : Device) : Device :=
  match (d.group g).lead with
  | some c => f c d
  | none => d

/-! ### Closing a group's sweep -/

/-- A group record that returns to IDLE, its copies, reports, barrier timer and halting condition let go (R115). -/
def closeRecord (x : Group) : Group :=
  { x with
    state := .idle, current := none, atBarrier := 0, task := .idle, begun := false, halting := false, force := none,
    window := none, reports := Eight.build fun _ => none, barrier := none }

/-- A group returns to IDLE with no outcome (R120, R130): reports of a halt still on their way are let go. -/
def quietClose (g : Grp) (d : Device) : Device :=
  paceRefresh
    (modGroup g closeRecord
      (forMask (d.group g).members (fun c d => modCtl c (fun k => { k with haltReport := false }) d) d))

/-- A group's sweep that began ends: IDLE, Last Outcome and GROUP_END (R127, R129, R130). -/
def closeGroup (g : Grp) (o : SweepOutcome) (d : Device) : Device :=
  devRaise (.groupEnd g) (modGroup g (fun x => { x with lastOutcome := some o }) (quietClose g d))

/-- The group check is abandoned by its lead (R120): the lead's Plan Check register reads ABANDONED, and the group and every
member still in CHECK return to IDLE. -/
def abandonGroupCheck (g : Grp) (d : Device) : Device :=
  let d1 := atLead g showAbandoned d
  quietClose g (forMask (d1.group g).members (fun c d => if takesPart d g c then toRest c .idle d else d) d1)

/-- The group aborts (R127): State IDLE, Last Outcome ABORTED, GROUP_END, and the abort handed to every present member. -/
def groupAbort (g : Grp) (d : Device) : Device :=
  closeGroup g .aborted (handAll g (.abort (figuresOf (d.group g))) d)

/-- The group halts with cause PLAN (R130), at the index of a failed walk fetch or none for a failed re-fetch. -/
def groupHalt (g : Grp) (invalid : Option Idx) (d : Device) : Device :=
  closeGroup g .halted (handAll g (.halt invalid (figuresOf (d.group g))) d)

/-- The halting condition of cause REFCLK ends when no present member remains in SWEEP (R130). -/
def finishHalting (g : Grp) (d : Device) : Device :=
  if allChans.any fun c => inMask (d.group g).members c && takesPart d g c then d
  else if (d.group g).begun then closeGroup g .halted d
  else quietClose g (atLead g showAbandoned d)

/-- A group's halting condition (R130): no read, fetch, release or fold from here on, and the barrier timer is cancelled. -/
def setHalting (g : Grp) (d : Device) : Device :=
  paceRefresh (modGroup g (fun x => { x with halting := true, barrier := none }) d)

/-- A running group enters its halting condition (R130). -/
def enterHalting (g : Grp) (d : Device) : Device :=
  if (d.group g).state = .idle then d else finishHalting g (setHalting g d)

/-! ### The group's ending, release and fold (R123, R124, R129) -/

/-- The selection of a group sweep: NONE_USABLE handed out, or the re-fetch of the selected index (R129). -/
def groupEnding (g : Grp) (d : Device) : Device :=
  let x := d.group g
  match select (figuresOf x).policy x.selection with
  | none => closeGroup g .noneUsable (handAll g (.ending none (figuresOf x)) d)
  | some i => paceRefresh (modGroup g (fun x => { x with task := .selectedRefetch i }) d)

/-- The group's walk goes on from index `start`, or the group ends where the window is done (R121). -/
def groupWalkFrom (g : Grp) (start : Nat) (d : Device) : Device :=
  match (d.group g).window with
  | none => d
  | some w =>
    match walkFrom w start with
    | none => groupEnding g d
    | some n => paceRefresh (modGroup g (fun x => { x with task := .walk n }) d)

/-- The reports of the members named in a mask, in ascending order. -/
def presentReports (x : Group) : List Report :=
  (allChans.filter (inMask x.members)).filterMap fun c => x.reports.get c

/-- The fold of a group point at its release, on the group's figures (R124). -/
def groupFold (x : Group) : Selection :=
  let rs := presentReports x
  let usable := rs.all fun r => r.outcome = .complete
  let limit := (x.force.getD SweepConfig.default).passLimit.toNat
  let bits := (rs.map fun r => r.bits).sum
  let words := (rs.map fun r => r.words).sum
  match x.current with
  | none => x.selection
  | some i => foldPoint i usable (usable && rs.all fun r => decide (r.bits ≤ limit)) bits words x.selection

/-- The release of the barrier (R123): the timer cancelled, the point folded, At-Barrier emptied and the reports discarded;
then the group's ending where it is STOPPING, else the walk of the next point. -/
def release (g : Grp) (d : Device) : Device :=
  let x := d.group g
  let d1 :=
    modGroup g
      (fun x =>
        { x with
          selection := groupFold x, atBarrier := 0, reports := Eight.build fun _ => none, barrier := none }) d
  if x.state = .stopping then groupEnding g d1
  else
    match x.current with
    | none => d1
    | some i => groupWalkFrom g (i.val + 1) (atMembers g (fun k => { k with task := .memberWait }) d1)

/-- Is every present member at the barrier, and At-Barrier not empty (R123, R126)? -/
def barrierFull (x : Group) : Bool := x.atBarrier != 0 && x.members &&& ~~~x.atBarrier == 0

/-- What follows an ejection at the group: a halting group may end, an empty barrier cancels its timer, and a full one is
released (R123, R126, R130). -/
def afterEjection (g : Grp) (d : Device) : Device :=
  let x := d.group g
  if x.halting then finishHalting g d
  else if x.atBarrier = 0 then modGroup g (fun x => { x with barrier := none }) d
  else if barrierFull x then release g d
  else d

/-! ### Members leaving (R126, R127, R130) -/

/-- A member's part in a group sweep ends with the group (R127): records, rest, SWEEP_END where the sweep had begun, IDLE. -/
def memberAborts (waits : Bool) (pt : Option Record) (f : Figures) (begun : Bool) (c : Chan) (d : Device) : Device :=
  endWith waits pt (if begun then some (memberSummary d c f .aborted 0 .none) else none) .abort c d

/-- A member halts (R130): records, rest, HALTED with the cause, SWEEP_END where the sweep had begun, HALT; `reports` where it tells
the Pace Controller. -/
def memberHalts (waits : Bool) (pt : Option Record) (cause : HaltCause) (f : Figures) (begun reports : Bool) (c : Chan)
    (d : Device) : Device :=
  endWith waits pt (if begun then some (memberSummary d c f .halted 0 cause) else none) (.halt cause reports) c d

/-- What an ejection does at the channel: its ending record, rest, and the state `st`, IDLE or HALTED (R126). -/
def ejectedChannel (under : Option PointOutcome) (st : ChanState) (c : Chan) (d : Device) : Device :=
  toRest c st (endingWriteOpt c (endingPoint d c under) d)

/-- Take a channel out of At-Barrier, its report discarded: At-Barrier holds the present members in phase HOLD (R115), and a member
that has left HOLD no longer counts for the point. -/
def leaveBarrier (c : Chan) (x : Group) : Group :=
  { x with atBarrier := maskErase x.atBarrier c, reports := x.reports.set c none }

/-- Take a channel out of a group's Members and At-Barrier, its report discarded (R126, R131). -/
def leaveRecord (c : Chan) (x : Group) : Group := { leaveBarrier c x with members := maskErase x.members c }

/-- Eject a non-lead member (R126): `under` is the outcome of a point under way (none where no record is composed), `st` the
state it enters, `cause` its Halt Cause where that is HALTED. A member that has already halted with cause REFCLK has no part
left in the sweep and keeps its state; its halt report, where it is still on its way, is taken with the ejection, so that the group
is in its halting condition and folds no point behind the member's summary (R89, R130; assumption log 23). -/
def eject (g : Grp) (under : Option PointOutcome) (st : ChanState) (cause : HaltCause) (c : Chan) (d : Device) : Device :=
  let part := takesPart d g c
  let d0 := if (d.ctl c).haltReport then setHalting g d else d
  let d1 := if part then ejectedChannel under st c d0 else d0
  let d2 :=
    if part && st = .halted then modCtl c (fun k => { k with haltCause := cause, haltReport := false }) d1
    else modCtl c (fun k => { k with haltReport := false }) d1
  let d3 := raiseIf (part && (d.group g).begun) c .sweepEnd (raise c .ejected (modGroup g (leaveRecord c) d2))
  afterEjection g (raiseIf (part && st = .halted) c .halt d3)

/-- The abort of a group by its lead (R127): the group aborts, and the lead's own part ends with `st` IDLE, or HALTED with
cause SIGNAL; `under` is the outcome of the lead's point under way. A lead that has already halted with cause REFCLK aborts the
group all the same, and makes no record and no SWEEP_END of its own again (R130; assumption log 23). -/
def leadAborts (waits : Bool) (g : Grp) (under : Option PointOutcome) (st : ChanState) (c : Chan) (d : Device) : Device :=
  let f := figuresOf (d.group g)
  let pt := endingPoint d c under
  let part := takesPart d g c
  let d1 := groupAbort g d
  if part then if st = .halted then memberHalts waits pt .signal f true false c d1 else memberAborts waits pt f true c d1
  else d1

/-! ### What a member takes -/

/-- A member takes the group's copy (R121): front end, current index and settle timer. -/
def takeCopy (c : Chan) (p : Copy) (d : Device) : Device :=
  beginSettle c p (applyCurrent c p (modCtl c (fun k => { k with message := none }) d))

/-- A member takes the group's abort (R127). -/
def takeAbort (waits : Bool) (c : Chan) (f : Figures) (d : Device) : Device :=
  memberAborts waits (endingPoint d c (some .aborted)) f true c d

/-- A member takes the group's halt for cause PLAN (R130). -/
def takeHalt (waits : Bool) (c : Chan) (invalid : Option Idx) (f : Figures) (d : Device) : Device :=
  memberHalts waits (invalid.map (invalidRecord d c)) .plan f true false c d

/-- A member takes the group's ending (R129): SELECTED with the copy applied, or NONE_USABLE at rest; its summary is an
ordinary write, and from here on the channel is taken as a solo channel (R118). -/
def takeEnding (c : Chan) (p : Option Copy) (f : Figures) (d : Device) : Device :=
  match p with
  | some p =>
    modCtl c
      (fun k =>
        { k with
          group := none, message := none, report := none, timer := none,
          task := .record (memberSummary d c f .selected p.index .none) (.selected false) })
      (applyCurrent c p d)
  | none =>
    modChan c
      (fun k =>
        { k with
          front := restSettings
          ctl :=
            { k.ctl with
              group := none, message := none, report := none, timer := none, current := none,
              task := .record (memberSummary d c f .noneUsable 0 .none) .noneUsable } })
      d

/-- Take a group abort, ending or halt that has been handed and not yet taken. A command, a signal loss or a REFCLK loss that
reaches the channel is taken after it. R141 has it for an ABORT, DISABLE or RESET_CHANNEL after a group's abort ("group is aborted;
member writes its ABORTED records and enters IDLE"); for the rest it is the model's choice (assumption log 20). -/
def flushGroup (c : Chan) (d : Device) : Device :=
  match (d.ctl c).message with
  | none => d
  | some (.copy _) => d
  | some (.abort f) => takeAbort false c f d
  | some (.ending p f) => takeEnding c p f d
  | some (.halt i f) => takeHalt false c i f d

/-! ### Starting a group (R119) -/

/-- The group is ready when every member is IDLE. -/
def groupReady (d : Device) (g : Grp) : Bool :=
  allChans.all fun c => !inMask (d.group g).members c || (d.ctl c).state = .idle

/-- A member taken into the group's sweep: SWEEP, CHECK, with the group's copies as its own. -/
def joinSweep (g : Grp) (x : SweepConfig) (w : Window) (k : Controller) : Controller :=
  { k with
    state := .sweep, task := .memberCheck, origin := .sweep, stopping := false, current := none, window := some w,
    force := some x, prior := none, timer := none, group := some g, message := none, report := none, haltReport := false }

/-- Start the group's sweep with the lead's configuration and window (R119). -/
def groupStart (g : Grp) (lead : Chan) (x : SweepConfig) (w : Window) (d : Device) : Device :=
  let d1 :=
    modGroup g
      (fun y =>
        { y with
          state := .running, current := none, atBarrier := 0, selection := Selection.cleared, task := .check (checkStart w),
          begun := false, halting := false, force := some x, window := some w, reports := Eight.build fun _ => none,
          barrier := none }) d
  let d2 := forMask (d.group g).members (fun c d => modCtl c (joinSweep g x w) d) d1
  paceRefresh (modCtl lead (fun k => { k with planCheck := { result := .running, index := w.first, fetch := false } }) d2)

end Sys2Proof.Machine
end

