-- ==== Sys2Proof/Machine/Commands.lean ====
section
/-! DEFINITION. The eleven channel commands at one channel (chapter 7, with the rules of chapters 3, 5 and 6 that take each),
and their rows. -/

namespace Sys2Proof.Machine

open Sys2Proof

/-! ### Shared conditions -/

/-- The configuration a config check copies (R46). -/
def configOf (d : Device) (c : Chan) : SweepConfig := (d.chan c).config.sweep

/-- The window registers of a channel (R8). -/
def windowRegs (d : Device) (c : Chan) : Window := { first := (d.chan c).config.winFirst, last := (d.chan c).config.winLast }

/-- Is a channel free for a command that starts work: IDLE or APPLIED, and not a member of a running group (R118)? -/
def freeToStart (d : Device) (c : Chan) : Bool :=
  ((d.ctl c).state = .idle || (d.ctl c).state = .applied) && (runningGroup d c).isNone

/-- Is a channel a member of a group that it does not lead? -/
def followsOnly (d : Device) (c : Chan) : Bool :=
  match groupOf d c with
  | some g => !leads d g c
  | none => false

/-- The argument of a command as a plan index within a window, if it is one (R66, R67, R136). -/
def argIn (d : Device) (c : Chan) (w : Window) : Option Idx :=
  let a := (d.ctl c).command
  if a.toNat ≤ 127 ∧ inWindow w a.toNat = true then some (idxOf a.toNat) else none

/-- A task in which a sweep is making its ending: the selected re-fetch, or a pending summary (R60, R63). -/
def Task.inEnding (t : Task) : Bool :=
  match t with
  | .selectedRefetch _ _ => true
  | t =>
    match t.pendingRecord with
    | some (.summary _) => true
    | some (.point _) => false
    | some (.move _) => false
    | none => false

/-! ### Powering a channel up and down (R20, R25 to R28, R71, R72) -/

/-- The channel leaves OFF: lanes powered at the rest settings, the generator's sequence started, the checker out of OFF by
the report then standing; the change of lane `c`'s report reaches the other checkers that watch it (R26, R28, R29, R71). -/
def powerUp (c : Chan) (d : Device) : Device :=
  let d1 :=
    modChan c
      (fun k =>
        { k with front := restSettings, gen := genRestart k.gen, ctl := { k.ctl with state := .idle, current := none } }) d
  let d2 := modChan c (fun k => { k with chk := chkLeaveOff (sourceReport d1 c) k.chk }) d1
  if laneReport d2 c then reportChanged c true d2 else d2

/-- The channel enters OFF: lanes unpowered, rest settings, checker OFF with counting closed; an unpowered receive lane
reports signal absent to the checkers that watch it (R20, R28, R29, R72). What the checker handed earlier and the channel has not
taken is let go, since nothing in OFF makes anything of it: the manual is silent on it (assumption log 41). A LOCKED checker
hands lock lost on its way (R39). -/
def powerDown (c : Chan) (d : Device) : Device :=
  let before := laneReport d c
  let d1 :=
    modChan c
      (fun k =>
        { k with
          front := restSettings, chk := chkEnterOff k.chk,
          ctl := { dropWork .off k.ctl with inbox := handedAtOff k.chk } }) d
  let d2 : Device := { d1 with lanes := { d1.lanes with tx := d1.lanes.tx.set c none } }
  if before then reportChanged c false d2 else d2

/-! ### Ending work (R13, R64, R68, R72, R106, R120, R126, R127) -/

/-- A solo plan check is abandoned and the channel enters `st` (R13). -/
def abandonCheck (st : ChanState) (c : Chan) (d : Device) : Device := toRest c st (showAbandoned c d)

/-- What precedes the entry to OFF (R72, R108, R118): a member's ejection, a lead's abort of its group, an abandoned check, or
the ending of a sweep, SINGLE or track as by ABORT with no return to a saved state. -/
def endWork (c : Chan) (d : Device) : Device :=
  match runningGroup d c with
  | some g =>
    if leads d g c then if (d.group g).begun then leadAborts false g none .idle c d else abandonGroupCheck g d
    else eject g none .idle .none c d
  | none => if (d.ctl c).task.inCheck then abandonCheck .idle c d else abortSweep c d

/-- ABORT of a SINGLE (R68): the record as an ending write, then the return to the saved state; a return fetch that already
waits goes on. -/
def abortSingle (c : Chan) (d : Device) : Device :=
  match (d.ctl c).task with
  | .singleReturn _ => d
  | _ => afterSingle c (endingWriteOpt c (endingPoint d c (some .aborted)) d)

/-- Turn to the fetch of the current index that closes a track (R106): timer cancelled, counting closed. -/
def closeTrack (c : Chan) (d : Device) : Device :=
  modChan c (fun k => { k with ctl := { k.ctl with task := .closeFetch, timer := none }, chk := chkClose k.chk }) d

/-- ABORT of a track (R99, R106): APPLIED at once where the front ends hold the current entry, and else the fetch of the
current index, with a candidate's or a MOVE record made as an ending write. An ABORT while that fetch, of an earlier STOP or ABORT,
still waits changes nothing more: R106 has no row for it (assumption log 28). Nor has R106 a row for a MOVE record that waits in
RECORD for its first fill: the model takes it as in STALL (assumption log 44). -/
def abortTrack (c : Chan) (d : Device) : Device :=
  let k := d.ctl c
  match k.task with
  | .wait => enterApplied c d
  | .listing _ _ => enterApplied c d
  | .resettle => enterApplied c d
  | .candidateFetch => if k.cycle.position = 0 then enterApplied c d else closeTrack c d
  | .record r .move => enterApplied c (endingWrite c r d)
  | .stall r .move => enterApplied c (endingWrite c r d)
  | .closeFetch => d
  | _ => closeTrack c (endingWriteOpt c (endingPoint d c (some .aborted)) d)

/-- STOP of a track (R105). A STOP while the fetch that closes an earlier ABORT still waits changes nothing: R105 has no row for it
(assumption log 28). Nor has R105 a row for a MOVE record that waits in RECORD for its first fill: the model sets Stopping, as in
STALL of a MOVE record, and the channel enters APPLIED once the record is written or discarded (assumption log 44). -/
def stopTrack (c : Chan) (d : Device) : Device :=
  match (d.ctl c).task with
  | .wait => enterApplied c d
  | .listing _ _ => enterApplied c d
  | .resettle => enterApplied c d
  | .closeFetch => d
  | _ => modCtl c (fun k => { k with stopping := true }) d

/-! ### The commands (R136) -/

/-- ENABLE at channel `c` (R71). -/
def cmdEnable (c : Chan) (d : Device) : Device :=
  if (d.ctl c).state ≠ .off then refuse 0x01 .badState c d
  else if preloadActive d then refuse 0x01 .preloadBusy c d
  else if !d.time.present then refuse 0x01 .noRefclk c d
  else powerUp c (accept 0x01 .accepted c d)

/-- DISABLE at channel `c` (R72). -/
def cmdDisable (c : Chan) (d : Device) : Device :=
  let d1 := accept 0x02 .accepted c d
  if (d.ctl c).state = .off then d1 else powerDown c (endWork c d1)

/-- A solo channel takes START_SWEEP into CHECK (R47). -/
def beginCheck (c : Chan) (d : Device) : Device :=
  let w := windowRegs d c
  let x := configOf d c
  modCtl c (fun k =>
    { k with
      state := .sweep, task := .check (checkStart w), origin := .sweep, stopping := false, current := none,
      window := some w, force := some x,
      prior := some { applied := if k.state = .applied then k.current else none, window := k.window },
      planCheck := { result := .running, index := w.first, fetch := false } }) d

/-- START_SWEEP at channel `c` (R47, R118, R119). -/
def cmdStartSweep (c : Chan) (d : Device) : Device :=
  if !freeToStart d c then refuse 0x03 .badState c d
  else if preloadActive d then refuse 0x03 .preloadBusy c d
  else if !d.time.present then refuse 0x03 .noRefclk c d
  else if followsOnly d c then refuse 0x03 .notLead c d
  else if !configOk (configOf d c) then refuse 0x03 .badConfig c d
  else
    match groupOf d c with
    | some g =>
      if groupReady d g then groupStart g c (configOf d c) (windowRegs d c) (accept 0x03 .checking c d)
      else refuse 0x03 .groupNotReady c d
    | none => beginCheck c (accept 0x03 .checking c d)

/-- START_TRACK at channel `c` (R94, R118). -/
def cmdStartTrack (c : Chan) (d : Device) : Device :=
  if !((d.ctl c).state = .applied && (runningGroup d c).isNone) then refuse 0x04 .badState c d
  else if !d.time.present then refuse 0x04 .noRefclk c d
  else if followsOnly d c then refuse 0x04 .notLead c d
  else if (groupOf d c).isSome then refuse 0x04 .inGroup c d
  else if !configOk (configOf d c) then refuse 0x04 .badConfig c d
  else
    let x := configOf d c
    enterTrack c (modCtl c (fun k => { k with force := some x }) (accept 0x04 .accepted c d))

/-- The window a SINGLE judges its argument by: the registers from IDLE, the window in force from APPLIED (R9). -/
def singleWindow (d : Device) (c : Chan) : Window :=
  if (d.ctl c).state = .applied then (d.ctl c).window.getD (windowRegs d c) else windowRegs d c

/-- A channel takes SINGLE on a fetched copy (R67). -/
def beginSingle (c : Chan) (w : Window) (p : Copy) (d : Device) : Device :=
  let x := configOf d c
  let d1 :=
    modCtl c (fun k =>
      { k with
        state := .sweep, origin := .single, stopping := false, force := some x, window := some w,
        prior := some { applied := if k.state = .applied then k.current else none, window := k.window } }) d
  beginSettle c p (applyCurrent c p d1)

/-- SINGLE at channel `c` (R67, R118). The directed fetch is made when the command is taken (R16) and takes one turn of the
channel in the arbiter's rotation, whether it passes or fails. -/
def cmdSingle (c : Chan) (d : Device) : Device :=
  if !freeToStart d c then refuse 0x05 .badState c d
  else if preloadActive d then refuse 0x05 .preloadBusy c d
  else if !d.time.present then refuse 0x05 .noRefclk c d
  else if !configOk (configOf d c) then refuse 0x05 .badConfig c d
  else
    let w := singleWindow d c
    match argIn d c w with
    | none => refuse 0x05 .badArg c d
    | some i =>
      match directedFetch d i none with
      | .error r => refuse 0x05 .badArg c (showFetchFailure c r i (takeTurn c d))
      | .ok p => beginSingle c w p (accept 0x05 .accepted c (takeTurn c d))

/-- A channel takes APPLY on a fetched copy (R66). -/
def beginApply (c : Chan) (w : Window) (p : Copy) (d : Device) : Device :=
  applyCurrent c p (modCtl c (fun k => { k with state := .applied, window := some w }) d)

/-- APPLY at channel `c` (R66, R118), with its directed fetch as SINGLE has it. -/
def cmdApply (c : Chan) (d : Device) : Device :=
  if !freeToStart d c then refuse 0x06 .badState c d
  else if preloadActive d then refuse 0x06 .preloadBusy c d
  else if !d.time.present then refuse 0x06 .noRefclk c d
  else
    let w := windowRegs d c
    match argIn d c w with
    | none => refuse 0x06 .badArg c d
    | some i =>
      match directedFetch d i none with
      | .error r => refuse 0x06 .badArg c (showFetchFailure c r i (takeTurn c d))
      | .ok p => beginApply c w p (accept 0x06 .accepted c (takeTurn c d))

/-- STOP taken by the lead of a running group (R120, R128). -/
def stopGroup (g : Grp) (d : Device) : Device :=
  if (d.group g).begun then
    atMembers g (fun k => { k with stopping := true }) (modGroup g (fun x => { x with state := .stopping }) d)
  else abandonGroupCheck g d

/-- A walk fetch of a sweep that has read no entry yet: the check's end has been taken, and nothing since (R12, R13). -/
def atFirstWalk (k : Controller) : Bool :=
  match k.task, k.window with
  | .walk n, some w => n = w.first && k.current.isNone
  | _, _ => false

/-- STOP taken by a solo channel in SWEEP (R13, R63, R68). Taken with the end of a passing check, before an entry has been read,
it ends the sweep with no point measured, as R13 says; a walk that has read an entry is the walk in progress of R49, which goes
on to the point it finds. The two rules meet there, and where one gives way to the other is the model's choice (assumption
log 42). -/
def stopSweep (c : Chan) (d : Device) : Device :=
  let k := d.ctl c
  if k.task.inCheck then abandonCheck .idle c d
  else if k.origin = .single ∨ k.task.inEnding = true then d
  else if atFirstWalk k then sweepEnding c (modCtl c (fun k => { k with stopping := true }) d)
  else modCtl c (fun k => { k with stopping := true }) d

/-- STOP at channel `c` (R63, R105, R118, R128). -/
def cmdStop (c : Chan) (d : Device) : Device :=
  match (d.ctl c).state with
  | .sweep =>
    match runningGroup d c with
    | some g => if leads d g c then stopGroup g (accept 0x07 .accepted c d) else refuse 0x07 .notLead c d
    | none => stopSweep c (accept 0x07 .accepted c d)
  | .track => stopTrack c (accept 0x07 .accepted c d)
  | .off | .idle | .applied | .halted => refuse 0x07 .badState c d

/-- ABORT taken by a member of a running group (R118, R120, R126, R127). -/
def abortMember (g : Grp) (c : Chan) (d : Device) : Device :=
  if leads d g c then
    if (d.group g).begun then leadAborts false g (some .aborted) .idle c d else abandonGroupCheck g d
  else eject g (some .ejected) .idle .none c d

/-- ABORT taken by a solo channel in SWEEP (R13, R64, R68). -/
def abortSolo (c : Chan) (d : Device) : Device :=
  let k := d.ctl c
  if k.task.inCheck then abandonCheck .idle c d
  else if k.origin = .single then abortSingle c d
  else abortSweep c d

/-- ABORT at channel `c` (R64, R106, R118). -/
def cmdAbort (c : Chan) (d : Device) : Device :=
  match (d.ctl c).state with
  | .sweep =>
    match runningGroup d c with
    | some g => abortMember g c (accept 0x08 .accepted c d)
    | none => abortSolo c (accept 0x08 .accepted c d)
  | .track => abortTrack c (accept 0x08 .accepted c d)
  | .off | .idle | .applied | .halted => refuse 0x08 .badState c d

/-- CLEAR_HALT at channel `c` (R74). -/
def cmdClearHalt (c : Chan) (d : Device) : Device :=
  if (d.ctl c).state = .halted then
    modChan c (fun k => { k with front := restSettings, ctl := { k.ctl with state := .idle, current := none } })
      (accept 0x09 .accepted c d)
  else refuse 0x09 .badState c d

/-- CLEAR_COUNTERS at channel `c` (R41, R138). -/
def cmdClearCounters (c : Chan) (d : Device) : Device :=
  if (d.ctl c).state = .off then refuse 0x0A .badState c d
  else modChan c (fun k => { k with chk := { k.chk with monitor := Monitor.zero } }) (accept 0x0A .accepted c d)

/-- A channel leaves every group: out of Members, and the Lead becomes none where it led (R131). -/
def leaveGroups (c : Chan) (d : Device) : Device :=
  forGroups (fun g d =>
    if inMask (d.group g).members c then
      modGroup g (fun x => { leaveRecord c x with lead := if x.lead = some c then none else x.lead }) d
    else d) d

/-- The reset values of RESET_CHANNEL (R27, R38, R40, R73, R136, R144, R157): the configuration and the generator are kept. A
REFCLK loss that has been handed and not yet taken stays handed, and what the checker handed and the handbacks are let go, on
which the manual is silent (assumption log 27), but for the lock lost of a checker that leaves LOCKED by this reset (R39). The
raises of the channel's own controller are taken and cleared with the rest; of the other blocks' that wait, the first `n` are
taken before the reset and the others after it (R157). -/
def resetValues (n : Nat) (handed : List Handed) (k : Channel) : Channel :=
  { k with
    chk :=
      { Checker.default with
        mode := k.chk.mode, fixedPattern := k.chk.fixedPattern, fixedInverted := k.chk.fixedInverted }
    ctl :=
      { Controller.default with
        lastCommand := 0x0B, lastStatus := .accepted, refLoss := k.ctl.refLoss, inbox := handed }
    front := restSettings, events := 0, enables := 0, raised := (k.raised.filter fun e => !byController e).drop n,
    snap := Snapshot.default }

/-- RESET_CHANNEL at channel `c` (R73, R131, R157). -/
def cmdResetChannel (c : Chan) (d : Device) : Device :=
  let d1 := if (d.ctl c).state = .off && (runningGroup d c).isNone then d else powerDown c (endWork c d)
  modChan c (resetValues (Config.raisesTaken d.free) (handedAtOff (d.chan c).chk))
    { leaveGroups c d1 with free := d.free + 1 }

/-- A channel takes a command (R136, R137). STOP, ABORT, DISABLE and RESET_CHANNEL are taken after a group abort, ending or
halt that waits to be taken. R141 has it for ABORT, DISABLE and RESET_CHANNEL after a group's abort ("group is aborted; member writes
its ABORTED records and enters IDLE ...; member's ABORT then meets IDLE"); for STOP, and for an ending or a halt, it is the model's
choice (assumption log 20). -/
def takeCommand (k : Command) (c : Chan) (d : Device) : Device :=
  match k with
  | .enable => cmdEnable c d
  | .disable => cmdDisable c (flushGroup c d)
  | .startSweep => cmdStartSweep c d
  | .startTrack => cmdStartTrack c d
  | .single => cmdSingle c d
  | .apply => cmdApply c d
  | .stop => cmdStop c (flushGroup c d)
  | .abort => cmdAbort c (flushGroup c d)
  | .clearHalt => cmdClearHalt c d
  | .clearCounters => cmdClearCounters c d
  | .resetChannel => cmdResetChannel c (flushGroup c d)

/-! ### The rows: one happening at one channel -/

/-- ENABLE (R71). -/
def execEnable (c : Chan) (s : State) : Host.Outcome State Fault Refusal := s.act (happening (takeCommand .enable c))

/-- DISABLE (R72). -/
def execDisable (c : Chan) (s : State) : Host.Outcome State Fault Refusal := s.act (happening (takeCommand .disable c))

/-- START_SWEEP (R47). -/
def execStartSweep (c : Chan) (s : State) : Host.Outcome State Fault Refusal := s.act (happening (takeCommand .startSweep c))

/-- START_TRACK (R94). -/
def execStartTrack (c : Chan) (s : State) : Host.Outcome State Fault Refusal := s.act (happening (takeCommand .startTrack c))

/-- SINGLE (R67). -/
def execSingle (c : Chan) (s : State) : Host.Outcome State Fault Refusal := s.act (happening (takeCommand .single c))

/-- APPLY (R66). -/
def execApply (c : Chan) (s : State) : Host.Outcome State Fault Refusal := s.act (happening (takeCommand .apply c))

/-- STOP (R63). -/
def execStop (c : Chan) (s : State) : Host.Outcome State Fault Refusal := s.act (happening (takeCommand .stop c))

/-- ABORT (R64). -/
def execAbort (c : Chan) (s : State) : Host.Outcome State Fault Refusal := s.act (happening (takeCommand .abort c))

/-- CLEAR_HALT (R74). -/
def execClearHalt (c : Chan) (s : State) : Host.Outcome State Fault Refusal := s.act (happening (takeCommand .clearHalt c))

/-- CLEAR_COUNTERS (R138). -/
def execClearCounters (c : Chan) (s : State) : Host.Outcome State Fault Refusal :=
  s.act (happening (takeCommand .clearCounters c))

/-- RESET_CHANNEL (R73). -/
def execResetChannel (c : Chan) (s : State) : Host.Outcome State Fault Refusal :=
  s.act (happening (takeCommand .resetChannel c))

end Sys2Proof.Machine
end

