-- ==== Sys2Proof/Machine/Registers.lean ====
section
/-! DEFINITION. How a written value is stored in each register that can be written, and what the write does besides: shared by
host writes and by the Preload Controller's blocks (R174: "Every value is stored as the host write of the same register would
store it"). -/

namespace Sys2Proof.Machine

open Sys2Proof

/-- The configuration registers of the channel page (R133). -/
inductive CfgReg where
  | winFirst | winLast | settleTime | lockTimeout | policy | passLimit | autoTrack | ringPolicy | trackInterval | lookAhead
  | stepLimit | trackDwell | hysteresis | failLimit | recordMode | genMode | invert
  | user (r : UserReg)
  | checker (r : CheckerReg)
  deriving DecidableEq, Repr

/-- Change a channel's configuration. -/
def modConfig (c : Chan) (f : ChanConfig → ChanConfig) (d : Device) : Device :=
  modChan c (fun k => { k with config := f k.config }) d

/-- Change a channel's sweep configuration registers. -/
def modSweepRegs (c : Chan) (f : SweepConfig → SweepConfig) (d : Device) : Device :=
  modConfig c (fun k => { k with sweep := f k.sweep }) d

/-- Change a channel's Track fields. -/
def modTrackRegs (c : Chan) (f : TrackConfig → TrackConfig) (d : Device) : Device :=
  modSweepRegs c (fun k => { k with track := f k.track }) d

/-- A User Word with one of its bus words replaced (R183: low word first). -/
def setHalf (w : LaneWord) (high : Bool) (v : BusWord) : LaneWord :=
  if high then v ++ w.setWidth 16 else w.extractLsb' 16 16 ++ v

/-- A generator whose User Length or User Words have been written: in USER the position returns to 0 (R26). -/
def userRestart (g : Generator) : Generator :=
  match g.mode with
  | .user => { g with position := 0 }
  | .off => g
  | .lfsr _ => g

/-- Write the User Length or a bus word of a User Word (R21, R26, R30, R35): a checker in USER searches afresh. -/
def storeUser (r : UserReg) (v : BusWord) (c : Chan) (d : Device) : Device :=
  let d1 :=
    modChan c
      (fun k =>
        match r with
        | .length => { k with gen := userRestart { k.gen with userLength := userLengthOf v.toNat } }
        | .word q high =>
          { k with gen := userRestart { k.gen with userWords := k.gen.userWords.set q (setHalf (k.gen.userWords.get q) high v) } })
      d
  if (d.chan c).chk.mode = .user then atChecker c chkRestart d1 else d1

/-- Write Checker Mode, Fixed Pattern or Fixed Polarity (R27, R28, R30). -/
def storeChecker (r : CheckerReg) (v : BusWord) (c : Chan) (d : Device) : Device :=
  match r with
  | .mode =>
    let d1 := modChan c (fun k => { k with chk := { k.chk with mode := checkerModeOf (v.toNat % 4) } }) d
    if (d.ctl c).state = .off then d1 else atChecker c (chkModeWritten (sourceReport d1 c)) d1
  | .fixedPattern =>
    atChecker c chkRestart (modChan c (fun k => { k with chk := { k.chk with fixedPattern := lfsrOf (v.toNat % 4) } }) d)
  | .fixedPolarity =>
    atChecker c chkRestart (modChan c (fun k => { k with chk := { k.chk with fixedInverted := v.getLsbD 0 } }) d)

/-- Write the Generator Mode: the sequence of the mode now stored starts (R21, R26). -/
def storeGenMode (v : BusWord) (c : Chan) (d : Device) : Device :=
  modChan c (fun k => { k with gen := genRestart { k.gen with mode := genModeOf v.toNat } }) d

/-- Write a configuration register of channel `c`: the bits each rule keeps (R8, R21, R45, R81, R93). -/
def storeCfg (r : CfgReg) (v : BusWord) (c : Chan) (d : Device) : Device :=
  match r with
  | .winFirst => modConfig c (fun k => { k with winFirst := idxOf v.toNat }) d
  | .winLast => modConfig c (fun k => { k with winLast := idxOf v.toNat }) d
  | .settleTime => modSweepRegs c (fun k => { k with settleTime := v }) d
  | .lockTimeout => modSweepRegs c (fun k => { k with lockTimeout := v.setWidth 8 }) d
  | .policy => modSweepRegs c (fun k => { k with policy := v.setWidth 2 }) d
  | .passLimit => modSweepRegs c (fun k => { k with passLimit := v }) d
  | .autoTrack => modSweepRegs c (fun k => { k with autoTrack := v.getLsbD 0 }) d
  | .ringPolicy => modConfig c (fun k => { k with ringPolicy := if v.getLsbD 0 then .drop else .stall }) d
  | .trackInterval => modTrackRegs c (fun k => { k with interval := v }) d
  | .lookAhead => modTrackRegs c (fun k => { k with lookAhead := v.setWidth 2 }) d
  | .stepLimit => modTrackRegs c (fun k => { k with stepLimit := v.setWidth 4 }) d
  | .trackDwell => modTrackRegs c (fun k => { k with dwellClass := low3 v }) d
  | .hysteresis => modTrackRegs c (fun k => { k with hysteresis := v.setWidth 8 }) d
  | .failLimit => modTrackRegs c (fun k => { k with failLimit := v.setWidth 4 }) d
  | .recordMode => modTrackRegs c (fun k => { k with recordMode := if v.getLsbD 0 then .moves else .all }) d
  | .genMode => storeGenMode v c d
  | .invert => modChan c (fun k => { k with gen := { k.gen with invert := v.getLsbD 0 } }) d
  | .user r => storeUser r v c d
  | .checker r => storeChecker r v c d

/-! ### Device configuration -/

/-- Write a Dwell Table register: the low twelve bits (R6). -/
def storeDwell (k : Fin 8) (v : BusWord) (d : Device) : Device := { d with dwell := d.dwell.set k (v.setWidth 12) }

/-- Write TX Source `t`; a change raises ROUTE_CHANGED on channel `t` (R109, R113). -/
def storeTxSource (t : Chan) (v : BusWord) (d : Device) : Device :=
  let x := txSourceOf v.toNat
  raiseIf (d.lanes.txSource.get t != x) t .routeChanged
    { d with lanes := { d.lanes with txSource := d.lanes.txSource.set t x } }

/-- Write Checker Source `c`; a change raises ROUTE_CHANGED and acts on the checker by the new lane's report (R30, R112,
R113). -/
def storeCheckerSource (c : Chan) (v : BusWord) (d : Device) : Device :=
  if d.lanes.checkerSource.get c = low3 v then d
  else
    let d1 : Device := { d with lanes := { d.lanes with checkerSource := d.lanes.checkerSource.set c (low3 v) } }
    atChecker c (chkBreak (laneReport d1 (low3 v))) (raise c .routeChanged d1)

/-- May a Members write be stored: the group IDLE, and no channel named a member of another group (R116)? -/
def membersAllowed (d : Device) (g : Grp) (m : BitVec 8) : Bool :=
  (d.group g).state = .idle && allGroups.all fun h => h = g || (d.group h).members &&& m == 0

/-- Store Members; a Lead outside the new set becomes none (R116). -/
def storeMembers (g : Grp) (m : BitVec 8) (d : Device) : Device :=
  modGroup g
    (fun x =>
      { x with
        members := m
        lead :=
          match x.lead with
          | some c => if inMask m c then some c else none
          | none => none })
    d

/-- May a Lead write be stored in a group with Members `m`: none, or one of them (R117)? -/
def leadAllowed (m : BitVec 8) (l : Option Chan) : Bool :=
  match l with
  | some c => inMask m c
  | none => true

/-- Store the Lead (R117). -/
def storeLead (g : Grp) (l : Option Chan) (d : Device) : Device := modGroup g (fun x => { x with lead := l }) d

/-- Store the Barrier Timeout: the low eight bits, a 0 as 1 (R117). -/
def storeBarrierTimeout (g : Grp) (v : BusWord) (d : Device) : Device :=
  modGroup g (fun x => { x with barrierTimeout := if v.setWidth 8 = (0 : BitVec 8) then 1 else v.setWidth 8 }) d

end Sys2Proof.Machine
end

