-- ==== Sys2Proof/Machine/Preload.lean ====
section
/-! DEFINITION. The Preload Controller (chapter 10): transfers, the judging of the header and of blocks, block writes, the end
of a preload with its start actions, and the rows of the serial memory and of the handed commands. -/

namespace Sys2Proof.Machine

open Sys2Proof

/-- Change the Preload Controller. -/
def modPreload (f : Preload → Preload) (d : Device) : Device := { d with preload := f d.preload }

/-! ### Beginning and ending (R168, R177, R178) -/

/-- The device address of the serial memory: 0x50 and the sampled strap address (R167). -/
def serialAddress (x : Preload) : BitVec 7 := 0x50 + x.strapAddress.setWidth 7

/-- The bytes the part sends in a transfer (R169): the device address with the write direction, the starting address high byte
first, and after the repeated start the device address with the read direction. -/
def sentBytes (t : Transfer) : List Byte :=
  [t.device ++ (0 : BitVec 1), BitVec.ofNat 8 (t.address / 256), BitVec.ofNat 8 t.address, t.device ++ (1 : BitVec 1)]

/-- Whether the part acknowledges each data byte of a transfer in turn: every one but the last (R169). -/
def acknowledges (t : Transfer) : List Bool := List.replicate (t.length - 1) true ++ [false]

/-- What the part puts on the serial lines for the transfer in progress: the bytes it sends, which the memory is to acknowledge,
and its own acknowledges (R169). With no transfer in progress the port is released. -/
def serialPort (d : Device) : Option (List Byte × List Bool) :=
  match d.preload.work with
  | .transfer t => some (sentBytes t, acknowledges t)
  | .idle => none
  | .retryWait _ => none
  | .writing _ => none
  | .between => none

/-- Enter HEADER: every status register at its reset value, and the transfer of the first 16 bytes begun (R168, R172, R178). -/
def beginPreload (d : Device) : Device :=
  modPreload
    (fun x =>
      { Preload.default x.strapPreload x.strapAddress with
        state := .header, work := .transfer { kind := .header, device := serialAddress x, address := 0, length := 16, retries := 0 },
        start := x.start })
    d

/-- Leave HEADER or BLOCKS for a final state: the port released, the staging buffer let go. -/
def leavePreload (st : PreloadState) (d : Device) : Device :=
  modPreload (fun x => { x with state := st, work := .idle, staging := [] }) d

/-- A preload ends FAILED (R168, R175). -/
def failPreload (cause : PreloadCause) (d : Device) : Device :=
  devRaise .preloadFail (modPreload (fun x => { x with cause := cause }) (leavePreload .failed d))

/-- PRELOAD_DONE, once every start action has been taken or refused (R175). -/
def startDone (d : Device) : Device :=
  match d.preload.start with
  | some a =>
    if a.enables = 0 ∧ a.starts = 0 then devRaise .preloadDone (modPreload (fun x => { x with start := none }) d) else d
  | none => d

/-- The channels of a mask that are OFF. -/
def offMask (d : Device) (m : BitVec 8) : BitVec 8 :=
  allChans.foldl (fun a c => if inMask m c && (d.ctl c).state = .off then maskInsert a c else a) 0

/-- The last block has been applied or skipped (R175): DONE, and the start actions handed. Actions of an earlier preload that
no channel has taken yet stay handed. -/
def endPreload (d : Device) : Device :=
  let a := d.preload.start.getD { enables := 0, starts := 0 }
  let e := offMask d (d.preload.enableMask ||| d.preload.startMask)
  startDone
    (modPreload
      (fun x => { x with start := some { enables := a.enables ||| e, starts := a.starts ||| x.startMask } })
      (leavePreload .done d))

/-! ### The header (R172) -/

/-- The first condition of R172 that refuses a header. -/
def headerFaultOf (ws : List BusWord) : HeaderFault :=
  let n := (wordAt ws 2).toNat
  let len := (wordAt ws 3).toNat
  if wordSum ws ≠ 0 then .checksum
  else if wordAt ws 0 ≠ 0xC318 then .signature
  else if wordAt ws 1 ≠ 1 then .version
  else if n = 0 ∨ 64 < n then .count
  else if len < 16 + 8 * n ∨ 16 + 70 * n < len then .length
  else .none

/-- Start the transfer of a block's head (R173). -/
def readHead (d : Device) : Device :=
  modPreload
    (fun x =>
      { x with
        staging := []
        work := .transfer { kind := .head, device := serialAddress x, address := x.blockAddress, length := 4, retries := 0 } })
    d

/-- Judge the staged header (R172). -/
def judgeHeader (ws : List BusWord) (d : Device) : Device :=
  match headerFaultOf ws with
  | .none =>
    readHead
      (modPreload
        (fun x =>
          { x with
            state := .blocks, imageId := wordAt ws 6 ++ wordAt ws 5, enableMask := (wordAt ws 4).setWidth 8,
            startMask := (wordAt ws 4).extractLsb' 8 8, blockNumber := 1, blockCount := (wordAt ws 2).toNat,
            imageLength := (wordAt ws 3).toNat, blockAddress := 16 })
        d)
  | f => failPreload .header (modPreload (fun x => { x with headerFault := f }) d)

/-! ### Blocks (R173, R174) -/

/-- Block types (R185). -/
inductive BlockType where
  | plan | dwell | channel | route | group | ring
  deriving DecidableEq, Repr

/-- The type a code names (R185). -/
def blockTypeOf (n : Nat) : Option BlockType :=
  match n with
  | 1 => some .plan
  | 2 => some .dwell
  | 3 => some .channel
  | 4 => some .route
  | 5 => some .group
  | 6 => some .ring
  | _ => none

/-- Does a payload length fit the type (R173)? -/
def lengthFits (t : BlockType) (n : Nat) : Bool :=
  match t with
  | .plan => decide (8 ≤ n) && decide (n ≤ 64) && n % 8 == 0
  | .dwell => n == 16
  | .channel => n == 48
  | .route => n == 16
  | .group => n == 2
  | .ring => n == 32

/-- Is a target in range for the type (R173)? -/
def targetFits (t : BlockType) (n : Nat) : Bool :=
  match t with
  | .plan => decide (n < 128)
  | .dwell => n == 0
  | .channel => decide (n < 8)
  | .route => n == 0
  | .group => decide (n < 4)
  | .ring => decide (n < 8)

/-- The group a target names. -/
def targetGroup (n : Nat) : Grp := ⟨n % 4, Nat.mod_lt _ (by decide)⟩

/-- The channel a target names. -/
def targetChan (n : Nat) : Chan := ⟨n % 8, Nat.mod_lt _ (by decide)⟩

/-- Does a GROUP block keep the membership rules as the records stand (R116, R117, R173)? -/
def groupBlockFits (d : Device) (g : Grp) (w : BusWord) : Bool :=
  membersAllowed d g (w.setWidth 8) && leadAllowed (w.setWidth 8) (leadOf (w.toNat / 256))

/-- The first condition of R173 that skips a staged block, given its words; or its type, where none does. -/
def blockFault (d : Device) (ws : List BusWord) : SkipReason ⊕ BlockType :=
  let target := (wordAt ws 0).toNat / 256
  let n := (wordAt ws 1).toNat
  if wordSum ws ≠ 0 then .inl .checksum
  else
    match blockTypeOf ((wordAt ws 0).toNat % 256) with
    | none => .inl .type
    | some t =>
      if !lengthFits t n then .inl .length
      else if !targetFits t target then .inl .target
      else if t = .plan ∧ 128 < target + n / 8 then .inl .range
      else if t = .group ∧ groupBlockFits d (targetGroup target) (wordAt ws 2) = false then .inl .groupRule
      else .inr t

/-- The extent of the block whose head is staged: 6 bytes and the payload (R173). -/
def blockExtent (x : Preload) : Nat := 6 + (wordAt (wordsOf x.staging) 1).toNat

/-- Go on after a block: between blocks, the staging buffer let go and the address of the next block at hand, or the end of the
preload (R173, R175, R177). Block Number still names the block that has been applied or skipped: it goes up when the next one begins
to be read (R178), which no rule puts in the happening that ends this one. When that is, is the model's choice (`beginBlock`;
assumption log 43). -/
def nextBlock (d : Device) : Device :=
  let x := d.preload
  if x.blockCount ≤ x.blockNumber then endPreload d
  else modPreload (fun x => { x with work := .between, blockAddress := x.blockAddress + blockExtent x, staging := [] }) d

/-- The Preload Controller, where it stands between blocks, begins to read the next one: Block Number shows it, and the transfer of
its head is in progress (R173, R178). -/
def beginBlock (d : Device) : Device :=
  match d.preload.work with
  | .between => readHead (modPreload (fun x => { x with blockNumber := x.blockNumber + 1 }) d)
  | .idle => d
  | .transfer _ => d
  | .retryWait _ => d
  | .writing _ => d

/-- A block has been written whole (R173). -/
def blockApplied (d : Device) : Device := nextBlock (modPreload (fun x => { x with applied := x.applied + 1 }) d)

/-- A block is skipped (R173). -/
def blockSkipped (r : SkipReason) (d : Device) : Device :=
  nextBlock
    (modPreload (fun x => { x with skipped := x.skipped + 1, lastSkip := r, lastSkipBlock := x.blockNumber }) d)

/-- A DWELL block: the eight class lengths (R174). -/
def writeDwellBlock (ws : List BusWord) (d : Device) : Device :=
  forChans (fun k d => storeDwell k (wordAt ws (2 + k.val)) d) d

/-- A field of a word of a CHANNEL block, `n` bits from bit `k`, as the host would write it (R185). -/
def fieldOf (w : BusWord) (k n : Nat) : BusWord := BitVec.ofNat 16 (w.toNat / 2 ^ k % 2 ^ n)

/-- The fields of a CHANNEL block with the register each is stored in (R185). -/
def channelFields (ws : List BusWord) : List (CfgReg × BusWord) :=
  let w := fun n => wordAt ws (2 + n)
  [(.winFirst, fieldOf (w 0) 0 7), (.winLast, fieldOf (w 0) 8 7), (.settleTime, w 1), (.lockTimeout, fieldOf (w 2) 0 8),
    (.policy, fieldOf (w 2) 8 2), (.autoTrack, fieldOf (w 2) 10 1), (.ringPolicy, fieldOf (w 2) 11 1), (.passLimit, w 3),
    (.trackInterval, w 4), (.lookAhead, fieldOf (w 5) 0 2), (.stepLimit, fieldOf (w 5) 4 4), (.trackDwell, fieldOf (w 5) 8 3),
    (.recordMode, fieldOf (w 5) 11 1), (.failLimit, fieldOf (w 5) 12 4), (.hysteresis, fieldOf (w 6) 0 8),
    (.genMode, fieldOf (w 7) 0 3), (.invert, fieldOf (w 7) 3 1), (.user .length, fieldOf (w 7) 4 3),
    (.checker .mode, fieldOf (w 7) 8 2), (.checker .fixedPattern, fieldOf (w 7) 10 2),
    (.checker .fixedPolarity, fieldOf (w 7) 12 1), (.user (.word 0 false), w 8), (.user (.word 0 true), w 9),
    (.user (.word 1 false), w 10), (.user (.word 1 true), w 11), (.user (.word 2 false), w 12), (.user (.word 2 true), w 13),
    (.user (.word 3 false), w 14), (.user (.word 3 true), w 15)]

/-- A CHANNEL block: every field of channel `c`'s configuration (R174). -/
def writeChannelBlock (c : Chan) (ws : List BusWord) (d : Device) : Device :=
  (channelFields ws).foldl (fun d f => storeCfg f.1 f.2 c d) d

/-- A ROUTE block: TX Source 0 to 7, then Checker Source 0 to 7 (R174). -/
def writeRouteBlock (ws : List BusWord) (d : Device) : Device :=
  forChans (fun c d => storeCheckerSource c (fieldOf (wordAt ws (2 + c.val)) 8 8) d)
    (forChans (fun t d => storeTxSource t (fieldOf (wordAt ws (2 + t.val)) 0 8) d) d)

/-- A GROUP block: Members, then Lead (R174). -/
def writeGroupBlock (g : Grp) (ws : List BusWord) (d : Device) : Device :=
  storeLead g (leadOf ((wordAt ws 2).toNat / 256)) (storeMembers g ((wordAt ws 2).setWidth 8) d)

/-- The entries of a PLAN block, one per grant (R174). -/
def planTargets (first n : Nat) (ws : List BusWord) : List RamTarget :=
  (List.range n).map fun k =>
    .entry (idxOf (first + k))
      [wordAt ws (2 + 4 * k), wordAt ws (3 + 4 * k), wordAt ws (4 + 4 * k), wordAt ws (5 + 4 * k)]

/-- The control words of a RING block, one per grant (R174). -/
def ringTargets (c : Chan) (ws : List BusWord) : List RamTarget :=
  (List.range 16).map fun p => .control c ⟨p % 16, Nat.mod_lt _ (by decide)⟩ (wordAt ws (2 + p))

/-- Write a verified block: a register block in this happening, a PLAN or RING block over the grants that follow (R174). -/
def writeBlock (t : BlockType) (ws : List BusWord) (d : Device) : Device :=
  let target := (wordAt ws 0).toNat / 256
  match t with
  | .plan => modPreload (fun x => { x with work := .writing (planTargets target ((wordAt ws 1).toNat / 8) ws) }) d
  | .dwell => blockApplied (writeDwellBlock ws d)
  | .channel => blockApplied (writeChannelBlock (targetChan target) ws d)
  | .route => blockApplied (writeRouteBlock ws d)
  | .group => blockApplied (writeGroupBlock (targetGroup target) ws d)
  | .ring => modPreload (fun x => { x with work := .writing (ringTargets (targetChan target) ws) }) d

/-- Judge the block in the staging buffer (R173). -/
def judgeBlock (d : Device) : Device :=
  let ws := wordsOf d.preload.staging
  match blockFault d ws with
  | .inl r => blockSkipped r d
  | .inr t => writeBlock t ws d

/-- Read on in the block whose head is staged: a transfer of 32 bytes, or the last shorter one; or judge it, once it is held
whole (R173). -/
def readBody (d : Device) : Device :=
  let x := d.preload
  let left := blockExtent x - x.staging.length
  if left = 0 then judgeBlock d
  else
    modPreload
      (fun x =>
        { x with
          work :=
            .transfer
              { kind := .body, device := serialAddress x, address := x.blockAddress + x.staging.length, length := min 32 left,
                retries := 0 } })
      d

/-- Judge a block's head: FORMAT where the image cannot be walked further (R173). -/
def judgeHead (d : Device) : Device :=
  let x := d.preload
  let n := (wordAt (wordsOf x.staging) 1).toNat
  if n % 2 = 1 ∨ 64 < n ∨ x.imageLength < x.blockAddress + 6 + n then failPreload .format d else readBody d

/-- The bytes of a transfer pass to the staging buffer and are judged (R169, R172, R173). -/
def transferDone (t : Transfer) (data : List Byte) (d : Device) : Device :=
  match t.kind with
  | .header => judgeHeader (wordsOf data) d
  | .head => judgeHead (modPreload (fun x => { x with staging := data }) d)
  | .body => readBody (modPreload (fun x => { x with staging := x.staging ++ data }) d)

/-! ### The rows -/

/-- The bytes of SERIAL_TRANSFER_DONE are those the transfer in progress reads: with another count the transfer has not
ended (assumption log 8). A happening of the serial memory finds a transfer in progress, so between blocks the next block has begun
to be read by then (assumption log 43). -/
def takeTransfer (data : List Byte) (d : Device) : Device :=
  let e := beginBlock d
  match e.preload.work with
  | .transfer t => if data.length = t.length then transferDone t data e else d
  | .idle => d
  | .retryWait _ => d
  | .writing _ => d
  | .between => d

/-- SERIAL_TRANSFER_DONE (R169, R172, R173). -/
def execSerialTransferDone (data : List Byte) (s : State) : Host.Outcome State Fault Refusal :=
  s.act (happening (takeTransfer data))

/-- Store one PLAN entry or one RING control word (R174); a RING word hands no handback (R77). -/
def writeTarget (t : RamTarget) (d : Device) : Device :=
  match t with
  | .entry i ws => writeWords (entryAddr i) ws d
  | .control c p w => writeWord (ringAddr c p) w d

/-- One grant of a PLAN or RING block (R174, R180). -/
def takeRamWrite (d : Device) : Device :=
  if granted d reqPreload then
    match d.preload.work with
    | .writing [] => d
    | .writing [t] => blockApplied (writeTarget t (served reqPreload d))
    | .writing (t :: ts) =>
      modPreload (fun x => { x with work := .writing ts }) (writeTarget t (served reqPreload d))
    | .idle => d
    | .transfer _ => d
    | .retryWait _ => d
    | .between => d
  else d

/-- PRELOAD_RAM_WRITE (R174). -/
def execPreloadRamWrite (s : State) : Host.Outcome State Fault Refusal := s.act (happening takeRamWrite)

/-- A byte is not acknowledged: the retry wait, or FAILED on the fourth attempt (R170). -/
def takeNack (d : Device) : Device :=
  let e := beginBlock d
  match e.preload.work with
  | .transfer t =>
    if t.retries < 3 then modPreload (fun x => { x with work := .retryWait { t with retries := t.retries + 1 } }) e
    else failPreload .noAck e
  | .idle => d
  | .retryWait _ => d
  | .writing _ => d
  | .between => d

/-- NACK (R170). -/
def execNack (s : State) : Host.Outcome State Fault Refusal := s.act (happening takeNack)

/-- The retry wait expires: the whole transfer again (R170). -/
def takeRetry (d : Device) : Device :=
  match d.preload.work with
  | .retryWait t => modPreload (fun x => { x with work := .transfer t }) d
  | .idle => d
  | .transfer _ => d
  | .writing _ => d
  | .between => d

/-- RETRY_WAIT_EXPIRY (R170). -/
def execRetryWaitExpiry (s : State) : Host.Outcome State Fault Refusal := s.act (happening takeRetry)

/-- An attempt's limit expires (R171). -/
def takeTimeout (d : Device) : Device :=
  let e := beginBlock d
  match e.preload.work with
  | .transfer _ => failPreload .busTimeout e
  | .idle => d
  | .retryWait _ => d
  | .writing _ => d
  | .between => d

/-- TRANSFER_TIMEOUT (R171). -/
def execTransferTimeout (s : State) : Host.Outcome State Fault Refusal := s.act (happening takeTimeout)

/-- A channel takes the ENABLE handed to it (R175). -/
def takeHandedEnable (c : Chan) (d : Device) : Device :=
  match d.preload.start with
  | some a =>
    if inMask a.enables c then
      startDone
        (modPreload (fun x => { x with start := some { a with enables := maskErase a.enables c } }) (takeCommand .enable c d))
    else d
  | none => d

/-- PRELOAD_HANDED_ENABLE (R175). -/
def execPreloadHandedEnable (c : Chan) (s : State) : Host.Outcome State Fault Refusal := s.act (happening (takeHandedEnable c))

/-- A channel takes the START_SWEEP handed to it once every ENABLE has been taken (R175). -/
def takeHandedStart (c : Chan) (d : Device) : Device :=
  match d.preload.start with
  | some a =>
    if a.enables = 0 ∧ inMask a.starts c = true then
      startDone
        (modPreload (fun x => { x with start := some { a with starts := maskErase a.starts c } })
          (takeCommand .startSweep c d))
    else d
  | none => d

/-- PRELOAD_HANDED_START_SWEEP (R175). -/
def execPreloadHandedStartSweep (c : Chan) (s : State) : Host.Outcome State Fault Refusal :=
  s.act (happening (takeHandedStart c))

end Sys2Proof.Machine
end

