-- ==== Sys2Proof/Machine/View.lean ====
section
/-! DEFINITION. What the host reads at each offset of the window (R134, R179, R181 to R183). A read changes no state but for
the Millisecond Counter's low word (R160), whose copy into the holding register stands with the host accesses. -/

namespace Sys2Proof.Machine

open Sys2Proof

/-! ### Codes (R182, R183) -/

/-- Code of a channel state. -/
def stateCode (s : ChanState) : Nat :=
  match s with
  | .off => 0
  | .idle => 1
  | .sweep => 2
  | .applied => 3
  | .track => 4
  | .halted => 5

/-- Code of a phase. -/
def phaseCode (p : Phase) : Nat :=
  match p with
  | .none => 0
  | .check => 1
  | .settle => 2
  | .lockwait => 3
  | .dwell => 4
  | .record => 5
  | .stall => 6
  | .hold => 7
  | .wait => 8

/-- Code of an Origin in the Channel Status; a record codes it otherwise (R184). -/
def originCode (o : Origin) : Nat :=
  match o with
  | .none => 0
  | .sweep => 1
  | .single => 2
  | .track => 3

/-- Code of a Last Status. -/
def lastStatusCode (s : LastStatus) : Nat :=
  match s with
  | .none => 0
  | .accepted => 1
  | .checking => 2
  | .badCode => 3
  | .badState => 4
  | .badArg => 5
  | .badConfig => 6
  | .planInvalid => 7
  | .notLead => 8
  | .inGroup => 9
  | .groupNotReady => 10
  | .noRefclk => 11
  | .preloadBusy => 12

/-- Code of a Plan Check result. -/
def checkCode (r : CheckResult) : Nat :=
  match r with
  | .none => 0
  | .running => 1
  | .pass => 2
  | .order => 3
  | .field => 4
  | .dwellUnset => 5
  | .duplicate => 6
  | .empty => 7
  | .abandoned => 8
  | .skipped => 9

/-- Code of an LFSR pattern, from 0. -/
def lfsrCode (p : Lfsr) : Nat :=
  match p with
  | .l7 => 0
  | .l15 => 1
  | .l23 => 2
  | .l31 => 3

/-- Code of a Generator Mode. -/
def genModeCode (m : GenMode) : Nat :=
  match m with
  | .off => 0
  | .lfsr p => 1 + lfsrCode p
  | .user => 5

/-- Code of a Checker Mode. -/
def checkerModeCode (m : CheckerMode) : Nat :=
  match m with
  | .auto => 0
  | .fixed => 1
  | .user => 2
  | .off => 3

/-- Code of a Checker State. -/
def checkerStateCode (s : CheckerState) : Nat :=
  match s with
  | .off => 0
  | .nosignal => 1
  | .search => 2
  | .locked => 3

/-- Code of a Detected Pattern. -/
def detectedCode (p : Detected) : Nat :=
  match p with
  | .none => 0
  | .lfsr p => 1 + lfsrCode p
  | .user => 5

/-- Code of a TX Source. -/
def txCode (x : TxSource) : Nat :=
  match x with
  | .off => 0
  | .gen g => 8 + g.val
  | .loop r => 16 + r.val

/-- Code of a group State. -/
def groupStateCode (s : GroupState) : Nat :=
  match s with
  | .idle => 0
  | .running => 1
  | .stopping => 2

/-- Code of a device command status. -/
def deviceStatusCode (s : DeviceStatus) : Nat :=
  match s with
  | .none => 0
  | .accepted => 1
  | .badCode => 2
  | .badState => 3

/-- Code of a Write Fault Cause. -/
def writeFaultCode (w : WriteFault) : Nat :=
  match w with
  | .none => 0
  | .groupRule => 1
  | .range => 2
  | .noChannel => 3
  | .preload => 4
  | .deviceCommand => 5

/-- Code of a Preload State. -/
def preloadStateCode (s : PreloadState) : Nat :=
  match s with
  | .none => 0
  | .header => 1
  | .blocks => 2
  | .done => 3
  | .failed => 4
  | .aborted => 5

/-- Code of a Preload Cause. -/
def preloadCauseCode (c : PreloadCause) : Nat :=
  match c with
  | .none => 0
  | .header => 1
  | .noAck => 2
  | .busTimeout => 3
  | .format => 4

/-- Code of a Header Fault. -/
def headerFaultCode (h : HeaderFault) : Nat :=
  match h with
  | .none => 0
  | .checksum => 1
  | .signature => 2
  | .version => 3
  | .count => 4
  | .length => 5

/-- Code of a skip reason. -/
def skipCode (r : SkipReason) : Nat :=
  match r with
  | .none => 0
  | .checksum => 1
  | .type => 2
  | .length => 3
  | .target => 4
  | .range => 5
  | .groupRule => 6

/-- A number as a bus word. -/
def word (n : Nat) : BusWord := BitVec.ofNat 16 n

/-- A flag as a number. -/
def flag (b : Bool) : Nat := if b then 1 else 0

/-- An index with its present flag at bit `k`, or 0 (R44, R96, R115, R143). -/
def indexWord (k : Nat) (i : Option Idx) : Nat :=
  match i with
  | some i => i.val + 2 ^ k
  | none => 0

/-! ### The channel page (R183) -/

/-- Channel Status, first word. -/
def statusWord (k : Controller) : BusWord :=
  word (stateCode k.state + 8 * phaseCode k.task.phase + 256 * originCode k.origin + 1024 * flag k.stopping
    + 2048 * haltCode k.haltCause)

/-- The Candidate part of the Track Status: the list position being measured or recorded, else 0 (R96). -/
def candidateShown (k : Controller) : Nat :=
  if k.state = .track then
    match k.task with
    | .candidateFetch => k.cycle.position
    | .settle _ => k.cycle.position
    | .lockwait _ => k.cycle.position
    | .dwell _ => k.cycle.position
    | .record _ .candidate => k.cycle.position
    | .stall _ .candidate => k.cycle.position
    | _ => 0
  else 0

/-- Word `n` of a number, 16 bits each, low first. -/
def part (x n : Nat) : BusWord := word (x / 65536 ^ n)

/-- The register of one channel at an offset of the channel page (R183). -/
def chanRead (k : Channel) (offset : Nat) : BusWord :=
  let x := k.config.sweep
  match offset with
  | 0x0102 => k.ctl.command
  | 0x0104 => k.ctl.lastCommand.setWidth 16
  | 0x0106 => word (lastStatusCode k.ctl.lastStatus)
  | 0x0108 => statusWord k.ctl
  | 0x010A => word (indexWord 7 k.ctl.current + 256 * k.ctl.seq.toNat)
  | 0x010C =>
    word (checkCode k.ctl.planCheck.result + 16 * flag k.ctl.planCheck.fetch + 256 * k.ctl.planCheck.index.val)
  | 0x010E => word k.config.winFirst.val
  | 0x0110 => word k.config.winLast.val
  | 0x0112 => x.settleTime
  | 0x0114 => x.lockTimeout.setWidth 16
  | 0x0116 => x.policy.setWidth 16
  | 0x0118 => x.passLimit
  | 0x011A => word (flag x.autoTrack)
  | 0x011C => word (flag (k.config.ringPolicy = .drop))
  | 0x011E => word k.ctl.fillPosition.val
  | 0x0120 => k.ctl.overrun.setWidth 16
  | 0x0122 => x.track.interval
  | 0x0124 => x.track.lookAhead.setWidth 16
  | 0x0126 => x.track.stepLimit.setWidth 16
  | 0x0128 => word x.track.dwellClass.val
  | 0x012A => x.track.hysteresis.setWidth 16
  | 0x012C => x.track.failLimit.setWidth 16
  | 0x012E => word (flag (x.track.recordMode = .moves))
  | 0x0130 => word (indexWord 7 k.ctl.anchor + 256 * (k.ctl.failCount % 16))
  | 0x0132 => word (k.ctl.cycle.list.length % 8 + 16 * (candidateShown k.ctl % 8))
  | 0x0134 => word (genModeCode k.gen.mode)
  | 0x0136 => word (flag k.gen.invert)
  | 0x0138 => k.gen.userLength.setWidth 16
  | 0x013A => part k.gen.userWords.g0.toNat 0
  | 0x013C => part k.gen.userWords.g0.toNat 1
  | 0x013E => part k.gen.userWords.g1.toNat 0
  | 0x0140 => part k.gen.userWords.g1.toNat 1
  | 0x0142 => part k.gen.userWords.g2.toNat 0
  | 0x0144 => part k.gen.userWords.g2.toNat 1
  | 0x0146 => part k.gen.userWords.g3.toNat 0
  | 0x0148 => part k.gen.userWords.g3.toNat 1
  | 0x014A => word (checkerModeCode k.chk.mode)
  | 0x014C => word (lfsrCode k.chk.fixedPattern)
  | 0x014E => word (flag k.chk.fixedInverted)
  | 0x0150 =>
    word (checkerStateCode k.chk.state + 4 * detectedCode k.chk.detected + 32 * flag k.chk.detectedInverted
      + 64 * k.chk.userPosition.val)
  | 0x0152 => k.events.setWidth 16
  | 0x0154 => k.enables.setWidth 16
  | 0x0156 => k.snap.seq
  | 0x0158 => part k.snap.monitor.words.toNat 0
  | 0x015A => part k.snap.monitor.words.toNat 1
  | 0x015C => part k.snap.monitor.words.toNat 2
  | 0x015E => part k.snap.monitor.bits.toNat 0
  | 0x0160 => part k.snap.monitor.bits.toNat 1
  | 0x0162 => part k.snap.monitor.bits.toNat 2
  | 0x0164 => part k.snap.monitor.errored.toNat 0
  | 0x0166 => part k.snap.monitor.errored.toNat 1
  | 0x0168 => word (stateCode k.snap.state + 8 * phaseCode k.snap.phase)
  | 0x016A => word (indexWord 7 k.snap.index)
  | 0x016C => part k.snap.time.toNat 0
  | 0x016E => part k.snap.time.toNat 1
  | _ => 0

/-- The lowest-numbered channel the Page Mask selects (R134). -/
def lowestSelected (d : Device) : Option Chan := allChans.find? (inMask d.host.pageMask)

/-- A read of the channel page: the lowest selected channel's register, 0 with a Page Mask of 0 (R134, R135). -/
def pageRead (d : Device) (offset : Nat) : BusWord :=
  match lowestSelected d with
  | some c => chanRead (d.chan c) offset
  | none => 0

/-! ### Device registers and group records (R182) -/

/-- Last Outcome's code (R182). -/
def lastOutcomeCode (o : Option SweepOutcome) : Nat :=
  match o with
  | some o => sweepCode o
  | none => 0

/-- A group record's part (R182). -/
def groupRead (x : Group) (offset : Nat) : BusWord :=
  match offset with
  | 0x0 => x.members.setWidth 16
  | 0x2 =>
    match x.lead with
    | some c => word c.val
    | none => 8
  | 0x4 => word (groupStateCode x.state)
  | 0x6 => word (indexWord 15 x.current)
  | 0x8 => x.atBarrier.setWidth 16
  | 0xA => x.barrierTimeout.setWidth 16
  | 0xC => word (lastOutcomeCode x.lastOutcome)
  | _ => 0

/-- A device register (R182). -/
def deviceRead (d : Device) (offset : Nat) : BusWord :=
  match offset with
  | 0x0000 => 0x0318
  | 0x0002 => 1
  | 0x0004 =>
    word (flag d.time.present + 2 * flag d.preload.strapPreload + 4 * d.preload.strapAddress.toNat
      + 16 * flag (preloadActive d))
  | 0x0006 => d.host.pageMask.setWidth 16
  | 0x000A => d.host.argument
  | 0x000C => word (d.host.lastCommand.toNat + 256 * deviceStatusCode d.host.status)
  | 0x000E => word (writeFaultCode d.host.fault)
  | 0x0010 => d.host.faultOffset
  | 0x0012 => d.time.refDivider
  | 0x0014 => d.time.ms.setWidth 16
  | 0x0016 => d.time.msHolding
  | 0x0018 => summaryWord d
  | 0x001A => d.events.setWidth 16
  | 0x001C => d.enables.setWidth 16
  | 0x0050 => word (preloadStateCode d.preload.state)
  | 0x0052 => word (preloadCauseCode d.preload.cause)
  | 0x0054 => word (headerFaultCode d.preload.headerFault)
  | 0x0056 => word d.preload.blockNumber
  | 0x0058 => word d.preload.applied
  | 0x005A => word d.preload.skipped
  | 0x005C => word (skipCode d.preload.lastSkip + 256 * d.preload.lastSkipBlock)
  | 0x005E => d.preload.dropped
  | 0x0060 => part d.preload.imageId.toNat 0
  | 0x0062 => part d.preload.imageId.toNat 1
  | 0x0064 => word (d.preload.enableMask.toNat + 256 * d.preload.startMask.toNat)
  | _ =>
    if h : 0x0020 ≤ offset ∧ offset < 0x0030 ∧ offset % 2 = 0 then
      (d.dwell.get ⟨(offset - 0x0020) / 2, by omega⟩).setWidth 16
    else if h : 0x0030 ≤ offset ∧ offset < 0x0040 ∧ offset % 2 = 0 then
      word (txCode (d.lanes.txSource.get ⟨(offset - 0x0030) / 2, by omega⟩))
    else if h : 0x0040 ≤ offset ∧ offset < 0x0050 ∧ offset % 2 = 0 then
      word (d.lanes.checkerSource.get ⟨(offset - 0x0040) / 2, by omega⟩).val
    else 0

/-- What a host read of an offset of the window returns (R181). -/
def busRead (d : Device) (offset : Nat) : BusWord :=
  if offset < 0x0080 then deviceRead d offset
  else if h : 0x0080 ≤ offset ∧ offset < 0x00C0 then groupRead (d.group ⟨(offset - 0x0080) / 16, by omega⟩) (offset % 16)
  else if offset < 0x0100 then 0
  else if offset < 0x0200 then pageRead d offset
  else if offset < 0x0400 then 0
  else if offset < 0x1800 then ramWord d offset
  else 0

end Sys2Proof.Machine
end

