-- ==== Sys2Proof/Machine/Host.lean ====
section
/-! DEFINITION. Host accesses (chapters 7, 8, 11): the write of every offset of the window, the device commands, the one read
that changes state, and their rows. -/

namespace Sys2Proof.Machine

open Sys2Proof

/-! ### The channel page (R132 to R136, R147) -/

/-- A write to the channel page (R133, R135): NO_CHANNEL with a Page Mask of 0, judged first; else taken at every selected
channel. -/
def pageWrite (offset : Nat) (f : Chan → Device → Device) (d : Device) : Device :=
  if d.host.pageMask = 0 then badWrite .noChannel offset d else forMask d.host.pageMask f d

/-- A write to a configuration register of the channel page, dropped while a preload is in progress (R133, R176). -/
def pageConfigWrite (offset : Nat) (f : Chan → Device → Device) (d : Device) : Device :=
  if d.host.pageMask = 0 then badWrite .noChannel offset d else unlessPreload offset (forMask d.host.pageMask f) d

/-- The write of the Command register at one channel: the command its code names, or BAD_CODE (R136, R137). -/
def commandAt (v : BusWord) (c : Chan) (d : Device) : Device :=
  match commandOf (codeOf v) with
  | some k => takeCommand k c d
  | none => refuse (codeOf v) .badCode c d

/-- The write of the Command Argument register at one channel (R136). -/
def argumentAt (v : BusWord) (c : Chan) (d : Device) : Device := modCtl c (fun k => { k with command := v }) d

/-- The write of the Overrun Count at one channel (R87). -/
def overrunAt (c : Chan) (d : Device) : Device := modCtl c (fun k => { k with overrun := 0 }) d

/-- The write of the channel event set at one channel (R152, R153): one happening at the Event Unit, which any number of the
raises that wait for the set may precede. -/
def eventClearAt (v : BusWord) (c : Chan) (d : Device) : Device :=
  modChan c (clearAfter (Config.raisesTaken d.free) v) { d with free := d.free + 1 }

/-- The write of the channel event enables at one channel (R151). -/
def enableAt (v : BusWord) (c : Chan) (d : Device) : Device := modChan c (fun k => { k with enables := v.setWidth 14 }) d

/-- The configuration register at an offset of the channel page (R183). -/
def cfgRegAt (offset : Nat) : Option CfgReg :=
  match offset with
  | 0x010E => some .winFirst
  | 0x0110 => some .winLast
  | 0x0112 => some .settleTime
  | 0x0114 => some .lockTimeout
  | 0x0116 => some .policy
  | 0x0118 => some .passLimit
  | 0x011A => some .autoTrack
  | 0x011C => some .ringPolicy
  | 0x0122 => some .trackInterval
  | 0x0124 => some .lookAhead
  | 0x0126 => some .stepLimit
  | 0x0128 => some .trackDwell
  | 0x012A => some .hysteresis
  | 0x012C => some .failLimit
  | 0x012E => some .recordMode
  | 0x0134 => some .genMode
  | 0x0136 => some .invert
  | 0x0138 => some (.user .length)
  | 0x013A => some (.user (.word 0 false))
  | 0x013C => some (.user (.word 0 true))
  | 0x013E => some (.user (.word 1 false))
  | 0x0140 => some (.user (.word 1 true))
  | 0x0142 => some (.user (.word 2 false))
  | 0x0144 => some (.user (.word 2 true))
  | 0x0146 => some (.user (.word 3 false))
  | 0x0148 => some (.user (.word 3 true))
  | 0x014A => some (.checker .mode)
  | 0x014C => some (.checker .fixedPattern)
  | 0x014E => some (.checker .fixedPolarity)
  | _ => none

/-- A write to an offset of the channel page: a register that can be written, or nothing stored (R133, R183). -/
def pageWriteAt (offset : Nat) (v : BusWord) (d : Device) : Device :=
  match cfgRegAt offset with
  | some r => pageConfigWrite offset (storeCfg r v) d
  | none =>
    match offset with
    | 0x0100 => pageWrite offset (commandAt v) d
    | 0x0102 => pageWrite offset (argumentAt v) d
    | 0x0120 => pageConfigWrite offset overrunAt d
    | 0x0152 => pageWrite offset (eventClearAt v) d
    | 0x0154 => pageWrite offset (enableAt v) d
    | _ => pageWrite offset (fun _ d => d) d

/-! ### Device commands (R142 to R146) -/

/-- Set the Device Command Status. -/
def deviceStatus (code : BitVec 8) (st : DeviceStatus) (d : Device) : Device :=
  { d with host := { d.host with lastCommand := code, status := st } }

/-- Refuse a device command: its status, and BAD_WRITE with cause DEVICE_COMMAND at the Device Command register (R142). -/
def refuseDevice (code : BitVec 8) (st : DeviceStatus) (d : Device) : Device :=
  badWrite .deviceCommand 0x0008 (deviceStatus code st d)

/-- A named channel's copy (R143). -/
def snapshotAt (time : BitVec 32) (c : Chan) (d : Device) : Device :=
  modChan c
    (fun k =>
      { k with
        snap :=
          { monitor := k.chk.monitor, state := k.ctl.state, phase := k.ctl.task.phase, index := k.ctl.current, time := time,
            seq := k.snap.seq + 1 } })
    d

/-- SNAPSHOT of the channels named in the low eight bits of the Device Command Argument (R143). The manual leaves open whether a
happening falls between two channels' copies; the model makes all of them in one step, at one time (assumption log 13). -/
def cmdSnapshot (d : Device) : Device :=
  forMask (d.host.argument.setWidth 8) (snapshotAt d.time.ms) (deviceStatus 1 .accepted d)

/-- Is every channel OFF or IDLE (R145)? -/
def allQuiet (d : Device) : Bool := allChans.all fun c => (d.ctl c).state = .off || (d.ctl c).state = .idle

/-- PRELOAD (R145, R178). -/
def cmdPreload (d : Device) : Device :=
  if allQuiet d && !preloadActive d then beginPreload (deviceStatus 2 .accepted d) else refuseDevice 2 .badState d

/-- ABORT_PRELOAD (R146, R177). -/
def cmdAbortPreload (d : Device) : Device :=
  if preloadActive d then leavePreload .aborted (deviceStatus 3 .accepted d) else refuseDevice 3 .badState d

/-- A write of the Device Command register (R142). -/
def deviceCommandWrite (v : BusWord) (d : Device) : Device :=
  match (codeOf v).toNat with
  | 1 => cmdSnapshot d
  | 2 => cmdPreload d
  | 3 => cmdAbortPreload d
  | _ => refuseDevice (codeOf v) .badCode d

/-! ### Device registers and group records (R109, R112, R116, R117, R152, R159) -/

/-- A write of RefDivider: PRELOAD first, then RANGE (R159). -/
def refDividerWrite (v : BusWord) (d : Device) : Device :=
  unlessPreload 0x0012
    (fun d =>
      if v.toNat < 10 ∨ 200 < v.toNat then badWrite .range 0x0012 d
      else { d with time := { d.time with refDivider := v } })
    d

/-- The offset of a part of group `g`'s record (R182). -/
def groupOffset (g : Grp) (part : Nat) : Nat := 0x0080 + 0x10 * g.val + part

/-- A write of Members (R116). -/
def membersWrite (g : Grp) (v : BusWord) (d : Device) : Device :=
  unlessPreload (groupOffset g 0)
    (fun d =>
      if membersAllowed d g (v.setWidth 8) then storeMembers g (v.setWidth 8) d
      else badWrite .groupRule (groupOffset g 0) d)
    d

/-- A write of the Lead (R117). -/
def leadWrite (g : Grp) (v : BusWord) (d : Device) : Device :=
  unlessPreload (groupOffset g 2)
    (fun d =>
      if (d.group g).state = .idle ∧ leadAllowed (d.group g).members (leadOf v.toNat) = true then storeLead g (leadOf v.toNat) d
      else badWrite .groupRule (groupOffset g 2) d)
    d

/-- A write of a TX Source register (R109). -/
def txSourceWrite (t : Chan) (v : BusWord) (d : Device) : Device :=
  unlessPreload (0x0030 + 2 * t.val) (storeTxSource t v) d

/-- A write of a Checker Source register (R112). -/
def checkerSourceWrite (c : Chan) (v : BusWord) (d : Device) : Device :=
  unlessPreload (0x0040 + 2 * c.val) (storeCheckerSource c v) d

/-- A write of the device event set (R152), which any number of the raises that wait for it may precede. -/
def deviceEventWrite (v : BusWord) (d : Device) : Device :=
  let d1 := devTakeRaises (Config.raisesTaken d.free) { d with free := d.free + 1 }
  { d1 with events := clearBits d1.events v }

/-- A write of the device event enables (R151). -/
def deviceEnableWrite (v : BusWord) (d : Device) : Device := { d with enables := v.setWidth 9 }

/-- A write to a group record (R115 to R117, R182): Members, Lead and Barrier Timeout; the other parts are read-only. -/
def groupWriteAt (g : Grp) (part : Nat) (v : BusWord) (d : Device) : Device :=
  match part with
  | 0x0 => membersWrite g v d
  | 0x2 => leadWrite g v d
  | 0xA => unlessPreload (groupOffset g 0xA) (storeBarrierTimeout g v) d
  | _ => d

/-- A write to a device register (R182). -/
def deviceWriteAt (offset : Nat) (v : BusWord) (d : Device) : Device :=
  match offset with
  | 0x0006 => { d with host := { d.host with pageMask := v.setWidth 8 } }
  | 0x0008 => deviceCommandWrite v d
  | 0x000A => { d with host := { d.host with argument := v } }
  | 0x0012 => refDividerWrite v d
  | 0x001A => deviceEventWrite v d
  | 0x001C => deviceEnableWrite v d
  | _ =>
    if h : 0x0020 ≤ offset ∧ offset < 0x0030 then
      unlessPreload offset (storeDwell ⟨(offset - 0x0020) / 2, by omega⟩ v) d
    else if h : 0x0030 ≤ offset ∧ offset < 0x0040 then txSourceWrite ⟨(offset - 0x0030) / 2, by omega⟩ v d
    else if h : 0x0040 ≤ offset ∧ offset < 0x0050 then checkerSourceWrite ⟨(offset - 0x0040) / 2, by omega⟩ v d
    else d

/-! ### The shared RAM (R1, R75, R77) -/

/-- A write of a word of the Plan Table (R1). -/
def planWrite (offset : Nat) (v : BusWord) (d : Device) : Device := unlessPreload offset (writeWord offset v) d

/-- A write of a ring's control word: stored, and at the fill position handed to the channel as a handback (R77). An ending of the
channel that stands between its fills goes on after it (R180). -/
def ringControlWrite (c : Chan) (p : RingPos) (v : BusWord) (d : Device) : Device :=
  unlessPreload (ringAddr c p)
    (fun d =>
      let d1 := writeWord (ringAddr c p) v d
      goOnEnding c (if (d.ctl c).fillPosition = p then modCtl c (fun k => { k with handbacks := k.handbacks + 1 }) d1 else d1))
    d

/-- A write of a word of ring `c`'s bodies (R77). -/
def ringBodyWrite (c : Chan) (offset : Nat) (v : BusWord) (d : Device) : Device :=
  unlessPreload offset (fun d => goOnEnding c (writeWord offset v d)) d

/-- A write to an offset of the rings. -/
def ringWriteAt (offset : Nat) (v : BusWord) (d : Device) : Device :=
  let n := offset - 0x0800
  let c : Chan := ⟨n / 512 % 8, Nat.mod_lt _ (by decide)⟩
  if n % 32 = 0 then ringControlWrite c ⟨n / 32 % 16, Nat.mod_lt _ (by decide)⟩ v d else ringBodyWrite c offset v d

/-- A host write of any offset of the window (R181 to R183): the register or RAM word there, or nothing. -/
def writeAt (offset : Nat) (v : BusWord) (d : Device) : Device :=
  if offset < 0x0080 then deviceWriteAt offset v d
  else if h : 0x0080 ≤ offset ∧ offset < 0x00C0 then groupWriteAt ⟨(offset - 0x0080) / 16, by omega⟩ (offset % 16) v d
  else if offset < 0x0100 then d
  else if offset < 0x0200 then pageWriteAt offset v d
  else if offset < 0x0400 then d
  else if offset < 0x0800 then planWrite offset v d
  else if offset < 0x1800 then ringWriteAt offset v d
  else d

/-- A host read that changes state: the Millisecond Counter's low word copies the high half into the holding register (R160);
every other read changes nothing. -/
def readAt (offset : Nat) (d : Device) : Device :=
  let d1 : Device := { d with host := { d.host with readData := busRead d offset } }
  if offset = 0x0014 then { d1 with time := { d1.time with msHolding := d1.time.ms.extractLsb' 16 16 } } else d1

/-- Serve an access that waited for the end of a reset (R179). -/
def serveAccess (a : Access) (d : Device) : Device :=
  match a with
  | .write o v => writeAt o v d
  | .read o => readAt o d

/-! ### The rows -/

/-- COMMAND_BAD_CODE (R137): the Command register written through the Page Mask. -/
def execCommandBadCode (v : BusWord) (s : State) : Host.Outcome State Fault Refusal :=
  s.act (hostAccess (.write 0x0100 v) (pageWrite 0x0100 (commandAt v)))

/-- SNAPSHOT (R143). -/
def execSnapshot (s : State) : Host.Outcome State Fault Refusal := s.act (hostAccess (.write 0x0008 1) cmdSnapshot)

/-- PRELOAD (R145). -/
def execPreload (s : State) : Host.Outcome State Fault Refusal := s.act (hostAccess (.write 0x0008 2) cmdPreload)

/-- ABORT_PRELOAD (R146). -/
def execAbortPreload (s : State) : Host.Outcome State Fault Refusal := s.act (hostAccess (.write 0x0008 3) cmdAbortPreload)

/-- DEVICE_COMMAND_BAD_CODE (R142). -/
def execDeviceCommandBadCode (v : BusWord) (s : State) : Host.Outcome State Fault Refusal :=
  s.act (hostAccess (.write 0x0008 v) (deviceCommandWrite v))

/-- REGISTER_WRITE (R133): the host write of the bus word at window offset 2 × `a` (R179). -/
def execRegisterWrite (a : BitVec 12) (v : BusWord) (s : State) : Host.Outcome State Fault Refusal :=
  s.act (hostAccess (.write (2 * a.toNat) v) (writeAt (2 * a.toNat) v))

/-- PLAN_TABLE_WRITE (R1): word `w` of entry `i`. -/
def execPlanTableWrite (i : Idx) (w : Fin 4) (v : BusWord) (s : State) : Host.Outcome State Fault Refusal :=
  s.act (hostAccess (.write (entryAddr i + 2 * w.val) v) (planWrite (entryAddr i + 2 * w.val) v))

/-- RING_CONTROL_WORD_WRITE (R77). -/
def execRingControlWordWrite (c : Chan) (p : RingPos) (v : BusWord) (s : State) : Host.Outcome State Fault Refusal :=
  s.act (hostAccess (.write (ringAddr c p) v) (ringControlWrite c p v))

/-- RING_BODY_WORD_WRITE (R77): body word `w` + 1 of position `p`. -/
def execRingBodyWordWrite (c : Chan) (p : RingPos) (w : Fin 15) (v : BusWord) (s : State) :
    Host.Outcome State Fault Refusal :=
  s.act (hostAccess (.write (ringAddr c p + 2 * (w.val + 1)) v) (ringBodyWrite c (ringAddr c p + 2 * (w.val + 1)) v))

/-- OVERRUN_COUNT_WRITE (R87). -/
def execOverrunCountWrite (v : BusWord) (s : State) : Host.Outcome State Fault Refusal :=
  s.act (hostAccess (.write 0x0120 v) (pageConfigWrite 0x0120 overrunAt))

/-- CHANNEL_EVENT_SET_WRITE (R153). -/
def execChannelEventSetWrite (v : BusWord) (s : State) : Host.Outcome State Fault Refusal :=
  s.act (hostAccess (.write 0x0152 v) (pageWrite 0x0152 (eventClearAt v)))

/-- DEVICE_EVENT_SET_WRITE (R152). -/
def execDeviceEventSetWrite (v : BusWord) (s : State) : Host.Outcome State Fault Refusal :=
  s.act (hostAccess (.write 0x001A v) (deviceEventWrite v))

/-- EVENT_ENABLE_WRITE (R151). -/
def execEventEnableWrite (r : EnableReg) (v : BusWord) (s : State) : Host.Outcome State Fault Refusal :=
  match r with
  | .channel => s.act (hostAccess (.write 0x0154 v) (pageWrite 0x0154 (enableAt v)))
  | .device => s.act (hostAccess (.write 0x001C v) (deviceEnableWrite v))

/-- MEMBERS_WRITE (R116). -/
def execMembersWrite (g : Grp) (v : BusWord) (s : State) : Host.Outcome State Fault Refusal :=
  s.act (hostAccess (.write (groupOffset g 0) v) (membersWrite g v))

/-- LEAD_WRITE (R117). -/
def execLeadWrite (g : Grp) (v : BusWord) (s : State) : Host.Outcome State Fault Refusal :=
  s.act (hostAccess (.write (groupOffset g 2) v) (leadWrite g v))

/-- TX_SOURCE_WRITE (R109). -/
def execTxSourceWrite (t : Chan) (v : BusWord) (s : State) : Host.Outcome State Fault Refusal :=
  s.act (hostAccess (.write (0x0030 + 2 * t.val) v) (txSourceWrite t v))

/-- CHECKER_SOURCE_WRITE (R112). -/
def execCheckerSourceWrite (c : Chan) (v : BusWord) (s : State) : Host.Outcome State Fault Refusal :=
  s.act (hostAccess (.write (0x0040 + 2 * c.val) v) (checkerSourceWrite c v))

/-- GENERATOR_MODE_WRITE (R26). -/
def execGeneratorModeWrite (v : BusWord) (s : State) : Host.Outcome State Fault Refusal :=
  s.act (hostAccess (.write 0x0134 v) (pageConfigWrite 0x0134 (storeGenMode v)))

/-- The offset of a register that `USER_WORD_WRITE` writes (R183). -/
def userOffset (r : UserReg) : Nat :=
  match r with
  | .length => 0x0138
  | .word q high => 0x013A + 4 * q.val + (if high then 2 else 0)

/-- USER_WORD_WRITE (R26). -/
def execUserWordWrite (r : UserReg) (v : BusWord) (s : State) : Host.Outcome State Fault Refusal :=
  s.act (hostAccess (.write (userOffset r) v) (pageConfigWrite (userOffset r) (storeUser r v)))

/-- The offset of a register that `CHECKER_MODE_WRITE` writes (R183). -/
def checkerOffset (r : CheckerReg) : Nat :=
  match r with
  | .mode => 0x014A
  | .fixedPattern => 0x014C
  | .fixedPolarity => 0x014E

/-- CHECKER_MODE_WRITE (R30). -/
def execCheckerModeWrite (r : CheckerReg) (v : BusWord) (s : State) : Host.Outcome State Fault Refusal :=
  s.act (hostAccess (.write (checkerOffset r) v) (pageConfigWrite (checkerOffset r) (storeChecker r v)))

/-- REFDIVIDER_WRITE (R159). -/
def execRefdividerWrite (v : BusWord) (s : State) : Host.Outcome State Fault Refusal :=
  s.act (hostAccess (.write 0x0012 v) (refDividerWrite v))

/-- MS_COUNTER_LOW_READ (R160). -/
def execMsCounterLowRead (s : State) : Host.Outcome State Fault Refusal := s.act (hostAccess (.read 0x0014) (readAt 0x0014))

end Sys2Proof.Machine
end

