-- ==== Sys2Proof/Machine/Channel.lean ====
section
/-! DEFINITION. What reaches a Channel Controller besides commands (chapters 1, 3, 4, 5): happenings handed by its checker,
its timers and the Timebase, handbacks, and the grants of the RAM Arbiter; and their rows. -/

namespace Sys2Proof.Machine

open Sys2Proof

/-! ### Happenings handed by the checker (R38, R39, R50 to R52, R69, R97, R122) -/

/-- Does a handed happening have an effect on a channel with this task? A closure or lock lost counts in DWELL, lock gained in
LOCKWAIT, signal lost in SWEEP past its check and in TRACK. -/
def handedCounts (t : Task) (h : Handed) : Bool :=
  match h with
  | .closure _ => t.phase = .dwell
  | .lockLost => t.phase = .dwell
  | .lockGained => t.phase = .lockwait
  | .signalLost => t.phase ≠ .none && t.phase ≠ .check

/-- Is it a closure? -/
def isClosure (h : Handed) : Bool :=
  match h with
  | .closure _ => true
  | .lockGained => false
  | .lockLost => false
  | .signalLost => false

/-- Take the first handed happening of a kind. What was handed before it and has no effect in the channel's phase is taken with
it; one that has an effect is to be taken first, except that a signal lost may be taken before a closure (R69). The answer is
what was taken and what still waits, or none where the happening has not been handed (assumption log 9). -/
def takeHanded (t : Task) (want : Handed → Bool) (passClosure : Bool) (l : List Handed) : Option (Handed × List Handed) :=
  match l with
  | [] => none
  | h :: l =>
    if want h then some (h, l)
    else if handedCounts t h && !(passClosure && isClosure h) then none
    else takeHanded t want passClosure l

/-- What the channel makes of a happening it has taken from its checker. -/
def takeSignal (waits : Bool) (c : Chan) (h : Handed) (d : Device) : Device :=
  let k := d.ctl c
  match h with
  | .closure early => if k.task.phase = .dwell then endPoint c (if early then .earlyStop else .complete) d else d
  | .lockLost => if k.task.phase = .dwell then endPoint c .lockLost d else d
  | .lockGained =>
    match k.task with
    | .lockwait p => enterDwell c p d
    | _ => d
  | .signalLost =>
    if handedCounts k.task .signalLost then
      match runningGroup d c with
      | some g =>
        if leads d g c then leadAborts waits g (some .signalLost) .halted c d
        else eject g (some .signalLost) .halted .signal c d
      | none => haltChannel waits (endingPoint d c (some .signalLost)) .signal (stamp d) c d
    else d

/-- Take a happening of a kind from the inbox, if it is there to be taken. -/
def fromInbox (waits : Bool) (want : Handed → Bool) (passClosure : Bool) (c : Chan) (d : Device) : Device :=
  match takeHanded (d.ctl c).task want passClosure (d.ctl c).inbox with
  | some (h, l) => takeSignal waits c h (modCtl c (fun k => { k with inbox := l }) d)
  | none => d

/-- POINT_CLOSURE (R52). -/
def execPointClosure (c : Chan) (s : State) : Host.Outcome State Fault Refusal := s.act (happening (fromInbox false isClosure false c))

/-- LOCK_GAINED (R51). -/
def execLockGained (c : Chan) (s : State) : Host.Outcome State Fault Refusal :=
  s.act (happening (fromInbox false (fun h => h = .lockGained) false c))

/-- LOCK_LOST (R52). -/
def execLockLost (c : Chan) (s : State) : Host.Outcome State Fault Refusal :=
  s.act (happening (fromInbox false (fun h => h = .lockLost) false c))

/-- SIGNAL_LOST (R69), after whatever the channel's group has handed it. -/
def execSignalLost (c : Chan) (s : State) : Host.Outcome State Fault Refusal :=
  s.act (happening fun d =>
    if (d.ctl c).inbox.contains .signalLost then
      fromInbox (hostWaits c s.pending) (fun h => h = .signalLost) true c (flushGroup c d)
    else d)

/-! ### Timers (R50, R51, R97, R161) -/

/-- Has the channel's timer of a kind counted out, its expiry handed and not yet taken? -/
def expired (d : Device) (c : Chan) (kind : TimerKind) : Bool := (d.ctl c).timer = some { kind := kind, left := 0 }

/-- Let a channel's timer go. -/
def dropTimer (c : Chan) (d : Device) : Device := modCtl c (fun k => { k with timer := none }) d

/-- The settle timer's expiry: LOCKWAIT, or WAIT after a reapplication (R50, R102). -/
def takeSettle (c : Chan) (d : Device) : Device :=
  if expired d c .settle then
    match (d.ctl c).task with
    | .settle p => enterLockwait c p (dropTimer c d)
    | .resettle => enterWait c d
    | _ => dropTimer c d
  else d

/-- SETTLE_TIMER_EXPIRY (R50). -/
def execSettleTimerExpiry (c : Chan) (s : State) : Host.Outcome State Fault Refusal := s.act (happening (takeSettle c))

/-- The lock timer's expiry: the point ends NO_LOCK (R51). -/
def takeLockTimeout (c : Chan) (d : Device) : Device :=
  if expired d c .lock then
    match (d.ctl c).task with
    | .lockwait _ => endPoint c .noLock (dropTimer c d)
    | _ => dropTimer c d
  else d

/-- LOCK_TIMER_EXPIRY (R51). -/
def execLockTimerExpiry (c : Chan) (s : State) : Host.Outcome State Fault Refusal := s.act (happening (takeLockTimeout c))

/-- The interval timer's expiry: a cycle begins with its list reads, or with the list of the current index alone where no other
index passes the window and step tests (R97, R98). -/
def takeInterval (c : Chan) (d : Device) : Device :=
  let k := d.ctl c
  if expired d c .interval then
    match k.task with
    | .wait =>
      match k.current, k.window with
      | some i, some w =>
        let t := (forceOf k).track
        let todo := candidates w (k.anchor.getD i).val i.val t.lookAhead.toNat t.stepLimit.toNat
        if todo = [] then fixList c [i] (dropTimer c d) else setTask c (.listing todo [i]) (dropTimer c d)
      | _, _ => dropTimer c d
    | _ => dropTimer c d
  else d

/-- INTERVAL_TIMER_EXPIRY (R97). -/
def execIntervalTimerExpiry (c : Chan) (s : State) : Host.Outcome State Fault Refusal := s.act (happening (takeInterval c))

/-! ### REFCLK loss (R13, R70, R107, R130) -/

/-- A Channel Controller takes the REFCLK loss handed to it, by its state. A group's member leaves HOLD, and with it At-Barrier, so
that the barrier is not released behind its HALTED summary (R89, R115; assumption log 22). -/
def takeRefLoss (waits : Bool) (c : Chan) (d : Device) : Device :=
  let k := d.ctl c
  match k.state with
  | .off | .idle | .halted => d
  | .applied | .track => haltChannel waits (endingPoint d c (some .refLost)) .refclk (stamp d) c d
  | .sweep =>
    match runningGroup d c with
    | some g =>
      memberHalts waits (endingPoint d c (some .refLost)) .refclk (figuresOf (d.group g)) (d.group g).begun true c
        (modGroup g (leaveBarrier c) d)
    | none =>
      haltChannel waits (endingPoint d c (some .refLost)) .refclk (stamp d) c (if k.task.inCheck then showAbandoned c d else d)

/-- CHANNEL_REFCLK_LOSS (R70), after whatever the channel's group has handed it. -/
def execChannelRefclkLoss (c : Chan) (s : State) : Host.Outcome State Fault Refusal :=
  s.act (happening fun d =>
    if (d.ctl c).refLoss then
      takeRefLoss (hostWaits c s.pending) c (modCtl c (fun k => { k with refLoss := false }) (flushGroup c d))
    else d)

/-! ### Plan checks and fetches (R10 to R12, R15, R16, R49, R60, R68) -/

/-- Do something in a part grant to channel `c`, if the arbiter's next part grant is the channel's (R180). -/
def channelGrant (c : Chan) (f : Device → Device) (d : Device) : Device :=
  if granted d (reqChan c) then f (served (reqChan c) d) else d

/-- One read of a solo plan check (R10, R11, R14). -/
def checkGrant (c : Chan) (d : Device) : Device :=
  match (d.ctl c).task, (d.ctl c).window with
  | .check (.reading next previous), some w =>
    let p := checkRead d w next previous
    setTask c (.check p) (showProgress c p d)
  | _, _ => d

/-- PLAN_CHECK_READ (R10). -/
def execPlanCheckRead (c : Chan) (s : State) : Host.Outcome State Fault Refusal :=
  s.act (happening fun d =>
    match (d.ctl c).task with
    | .check (.reading _ _) => channelGrant c (checkGrant c) d
    | _ => d)

/-- Last Status at the end of a plan check, where no command was written during CHECK (R12, R139). -/
def endStatus (st : LastStatus) (k : Controller) : Controller :=
  if k.lastStatus = .checking then { k with lastStatus := st } else k

/-- A solo sweep begins (R12, R48). -/
def beginSweep (c : Chan) (d : Device) : Device :=
  let d1 :=
    modCtl c (fun k =>
      { endStatus .accepted k with seq := k.seq + 1, prior := none, selection := Selection.cleared, stopping := false }) d
  match (d.ctl c).window with
  | some w => startWalk c w.first.val d1
  | none => d1

/-- A failing check returns the channel to the state it was in: APPLIED with its applied entry and window, or IDLE at rest
(R12). -/
def failCheck (c : Chan) (d : Device) : Device :=
  let d1 := modCtl c (endStatus .planInvalid) d
  let back : Device :=
    match (d.ctl c).prior with
    | some q =>
      match q.applied with
      | some i =>
        modCtl c (fun k =>
          { k with
            state := .applied, task := .idle, origin := .none, stopping := false, current := some i, window := q.window,
            force := none, prior := none, group := none, message := none, report := none }) d1
      | none => toRest c .idle d1
    | none => toRest c .idle d1
  raise c .cmdRefused back

/-- The end of a solo plan check (R12, R14). -/
def takeCheckEnd (c : Chan) (d : Device) : Device :=
  match (d.ctl c).task with
  | .check (.judged r i) =>
    let d1 := showResult c r i d
    if r = .pass then beginSweep c d1 else failCheck c d1
  | _ => d

/-- PLAN_CHECK_END (R12). -/
def execPlanCheckEnd (c : Chan) (s : State) : Host.Outcome State Fault Refusal := s.act (happening (takeCheckEnd c))

/-- One read of a solo walk fetch (R15, R49). -/
def walkGrant (waits : Bool) (c : Chan) (d : Device) : Device :=
  match (d.ctl c).task with
  | .walk next =>
    match walkRead d next with
    | .passed => startWalk c (next.val + 1) d
    | .found (.ok p) => beginSettle c p (applyCurrent c p d)
    | .found (.error r) => haltChannel waits (some (invalidRecord d c next)) .plan (stamp d) c (showFetchFailure c r next d)
  | _ => d

/-- WALK_FETCH (R15). -/
def execWalkFetch (c : Chan) (s : State) : Host.Outcome State Fault Refusal :=
  s.act (happening fun d =>
    match (d.ctl c).task with
    | .walk _ => channelGrant c (walkGrant (hostWaits c s.pending) c) d
    | _ => d)

/-- The re-fetch of the selected index (R60): the SELECTED summary, or a halt with cause PLAN. -/
def selectedGrant (c : Chan) (d : Device) : Device :=
  match (d.ctl c).task with
  | .selectedRefetch i at_ =>
    match directedFetch d i none with
    | .ok p => setTask c (.record (.summary (soloSummary d c .selected i .none at_)) (.selected true)) (applyCurrent c p d)
    | .error r => haltChannel false none .plan at_ c (showFetchFailure c r i d)
  | _ => d

/-- SELECTED_REFETCH (R60). -/
def execSelectedRefetch (c : Chan) (s : State) : Host.Outcome State Fault Refusal :=
  s.act (happening fun d =>
    match (d.ctl c).task with
    | .selectedRefetch _ _ => channelGrant c (selectedGrant c) d
    | _ => d)

/-- The re-fetch of the prior index after a SINGLE (R68). -/
def singleGrant (c : Chan) (d : Device) : Device :=
  match (d.ctl c).task with
  | .singleReturn i =>
    match directedFetch d i none with
    | .ok p => enterApplied c (applyCurrent c p d)
    | .error r => haltChannel false none .plan (stamp d) c (showFetchFailure c r i d)
  | _ => d

/-- SINGLE_RETURN_FETCH (R68). -/
def execSingleReturnFetch (c : Chan) (s : State) : Host.Outcome State Fault Refusal :=
  s.act (happening fun d =>
    match (d.ctl c).task with
    | .singleReturn _ => channelGrant c (singleGrant c) d
    | _ => d)

/-! ### Fills and handbacks (R79, R81 to R85) -/

/-- An ordinary write's first fill: written, or the ring is full under STALL or DROP. -/
def fillRecord (r : Record) (a : After) (c : Chan) (d : Device) : Device :=
  if ownPart (fillControl d c) then proceed c a (writeRecord c r d)
  else
    match (d.chan c).config.ringPolicy with
    | .stall => raise c .ringStall (setTask c (.stall r a) d)
    | .drop => proceed c a (discardRecord c d)

/-- A fill grant (R79): a record's first fill. -/
def fillGrant (c : Chan) (d : Device) : Device :=
  match (d.ctl c).task with
  | .record r a => fillRecord r a c d
  | _ => d

/-- FILL (R79). -/
def execFill (c : Chan) (s : State) : Host.Outcome State Fault Refusal :=
  s.act (happening fun d =>
    match (d.ctl c).task with
    | .record _ _ => channelGrant c (fillGrant c) d
    | _ => d)

/-- A handback has been taken. -/
def handbackTaken (c : Chan) (d : Device) : Device := modCtl c (fun k => { k with handbacks := k.handbacks - 1 }) d

/-- The fill that a handback brings a stalled channel (R83): written, and the work goes on, or the ring is still full. -/
def fillStalled (r : Record) (a : After) (c : Chan) (d : Device) : Device :=
  if ownPart (fillControl d c) then proceed c a (writeRecord c r d) else d

/-- A channel takes a handback (R83, R84): in STALL as one happening with the fill it asks for, in the channel's grant, so that
whatever the channel takes next meets the record written and the work gone on; and elsewhere as no happening. -/
def takeHandback (c : Chan) (d : Device) : Device :=
  if (d.ctl c).handbacks = 0 then d
  else
    match (d.ctl c).task with
    | .stall r a => channelGrant c (fun d => fillStalled r a c (handbackTaken c d)) d
    | _ => handbackTaken c d

/-- HANDBACK (R83). -/
def execHandback (c : Chan) (s : State) : Host.Outcome State Fault Refusal := s.act (happening (takeHandback c))

/-! ### Track cycles (R98, R99, R102, R105 to R107) -/

/-- One list read (R98). -/
def listGrant (c : Chan) (d : Device) : Device :=
  match (d.ctl c).task with
  | .listing (i :: todo) found =>
    let found' := if (readEntry d i).skip then found else found ++ [i]
    if todo = [] then fixList c found' d else setTask c (.listing todo found') d
  | _ => d

/-- LIST_READ (R98). -/
def execListRead (c : Chan) (s : State) : Host.Outcome State Fault Refusal :=
  s.act (happening fun d =>
    match (d.ctl c).task with
    | .listing _ _ => channelGrant c (listGrant c) d
    | _ => d)

/-- A candidate's fetch, in the Track Dwell class (R99, R107). -/
def candidateGrant (c : Chan) (d : Device) : Device :=
  let k := d.ctl c
  match k.task with
  | .candidateFetch =>
    let i := k.cycle.list.getD k.cycle.position 0
    let t := (forceOf k).track
    match directedFetch d i (some t.dwellClass) with
    | .ok p => beginSettle c p (setFront c p.settings d)
    | .error r =>
      haltChannel false (if t.recordMode = .all then some (invalidRecord d c i) else none) .plan (stamp d) c
        (showFetchFailure c r i d)
  | _ => d

/-- CANDIDATE_FETCH (R99). -/
def execCandidateFetch (c : Chan) (s : State) : Host.Outcome State Fault Refusal :=
  s.act (happening fun d =>
    match (d.ctl c).task with
    | .candidateFetch => channelGrant c (candidateGrant c) d
    | _ => d)

/-- The bit errors kept for an index in the cycle (R103). -/
def keptErrors (ks : List Kept) (i : Idx) : Nat :=
  match ks.find? fun k => k.index = i with
  | some k => k.bits
  | none => 0

/-- The MOVE record of a move to `i` (R103). -/
def moveRecord (d : Device) (c : Chan) (i : Idx) : Record :=
  let k := d.ctl c
  let cur := k.current.getD 0
  .move
    { fromIndex := cur, toIndex := i, fromErrors := keptErrors k.cycle.kept cur, toErrors := keptErrors k.cycle.kept i,
      anchor := k.anchor.getD cur, stamp := stamp d }

/-- The reapplication fetch (R102, R103): a move, a stay, or a halt with cause PLAN. -/
def reapplyGrant (c : Chan) (d : Device) : Device :=
  match (d.ctl c).task with
  | .reapply i =>
    match directedFetch d i none with
    | .error r => haltChannel false none .plan (stamp d) c (showFetchFailure c r i d)
    | .ok p =>
      if (d.ctl c).current = some i then afterReapply c (setFront c p.settings d)
      else raise c .trackMove (setTask c (.record (moveRecord d c i) .move) (applyCurrent c p d))
  | _ => d

/-- REAPPLICATION_FETCH (R102). -/
def execReapplicationFetch (c : Chan) (s : State) : Host.Outcome State Fault Refusal :=
  s.act (happening fun d =>
    match (d.ctl c).task with
    | .reapply _ => channelGrant c (reapplyGrant c) d
    | _ => d)

/-- The fetch of the current index that closes a STOP or an ABORT in a track (R105, R106). -/
def closeGrant (c : Chan) (d : Device) : Device :=
  let k := d.ctl c
  match k.task, k.current with
  | .closeFetch, some i =>
    match directedFetch d i none with
    | .ok p => enterApplied c (setFront c p.settings d)
    | .error r => haltChannel false none .plan (stamp d) c (showFetchFailure c r i d)
  | _, _ => d

/-- TRACK_CLOSE_FETCH (R105). -/
def execTrackCloseFetch (c : Chan) (s : State) : Host.Outcome State Fault Refusal :=
  s.act (happening fun d =>
    match (d.ctl c).task with
    | .closeFetch => channelGrant c (closeGrant c) d
    | _ => d)

end Sys2Proof.Machine
end

