-- ==== Sys2Proof/Machine/Pace.lean ====
section
/-! DEFINITION. The rows of the Pace Controller and of the members of a running group (chapter 6): its grants, the barrier
timer, REFCLK loss, and what members report and take. -/

namespace Sys2Proof.Machine

open Sys2Proof

/-! ### Grants to the Pace Controller (R120, R121, R129, R180) -/

/-- Do something in a part grant to the Pace Controller for group `g`, if the arbiter's next part grant is its and its request
is for that group (R180). -/
def paceGrant (g : Grp) (f : Device → Device) (d : Device) : Device :=
  if granted d reqPace && d.arbiter.paceRequest = some g then paceRefresh (f (servedGroup g d)) else d

/-- One read of a group check (R120), shown in the lead's Plan Check register (R14). -/
def groupCheckGrant (g : Grp) (d : Device) : Device :=
  match (d.group g).task, (d.group g).window with
  | .check (.reading next previous), some w =>
    let p := checkRead d w next previous
    modGroup g (fun x => { x with task := .check p }) (atLead g (fun c => showProgress c p) d)
  | _, _ => d

/-- GROUP_CHECK_READ (R120). -/
def execGroupCheckRead (g : Grp) (s : State) : Host.Outcome State Fault Refusal :=
  s.act (happening fun d =>
    match (d.group g).task with
    | .check (.reading _ _) => paceGrant g (groupCheckGrant g) d
    | _ => d)

/-- Is channel `c` a member of `g`'s sweep still in CHECK (R120, R130)? -/
def inGroupCheck (d : Device) (g : Grp) (c : Chan) : Bool := takesPart d g c && (d.ctl c).task = .memberCheck

/-- The group's sweep begins (R120): the sequence numbers, SETTLE at every member still in CHECK, the lead's Last Status, and
the walk from WinFirst. -/
def beginGroupSweep (g : Grp) (d : Device) : Device :=
  let d1 := modGroup g (fun x => { x with begun := true }) (atLead g (fun c => modCtl c (endStatus .accepted)) d)
  let d2 :=
    forMask (d1.group g).members
      (fun c d =>
        if inGroupCheck d g c then modCtl c (fun k => { k with seq := k.seq + 1, stopping := false, task := .memberWait }) d
        else d)
      d1
  match (d.group g).window with
  | some w => groupWalkFrom g w.first.val d2
  | none => d2

/-- A failing group check (R120): the group and every member still in CHECK return to IDLE; PLAN_INVALID and CMD_REFUSED at the
lead. -/
def failGroupCheck (g : Grp) (d : Device) : Device :=
  let d1 := atLead g (fun c d => raise c .cmdRefused (modCtl c (endStatus .planInvalid) d)) d
  quietClose g (forMask (d1.group g).members (fun c d => if inGroupCheck d g c then toRest c .idle d else d) d1)

/-- The end of a group check; a halting group makes nothing of it (R120, R130). -/
def takeGroupCheckEnd (g : Grp) (d : Device) : Device :=
  match (d.group g).task with
  | .check (.judged r i) =>
    if (d.group g).halting then d
    else
      let d1 := atLead g (fun c => showResult c r i) d
      if r = .pass then beginGroupSweep g d1 else failGroupCheck g d1
  | _ => d

/-- GROUP_CHECK_END (R120). -/
def execGroupCheckEnd (g : Grp) (s : State) : Host.Outcome State Fault Refusal := s.act (happening (takeGroupCheckEnd g))

/-- One read of a group walk fetch (R121). -/
def groupWalkGrant (g : Grp) (d : Device) : Device :=
  match (d.group g).task with
  | .walk next =>
    match walkRead d next with
    | .passed => groupWalkFrom g (next.val + 1) d
    | .found (.ok p) => handAll g (.copy p) (modGroup g (fun x => { x with current := some p.index, task := .point }) d)
    | .found (.error r) => groupHalt g (some next) (atLead g (fun c => showFetchFailure c r next) d)
  | _ => d

/-- GROUP_WALK_FETCH (R121). -/
def execGroupWalkFetch (g : Grp) (s : State) : Host.Outcome State Fault Refusal :=
  s.act (happening fun d =>
    match (d.group g).task with
    | .walk _ => paceGrant g (groupWalkGrant g) d
    | _ => d)

/-- The group's re-fetch of the selected index (R129). -/
def groupSelectedGrant (g : Grp) (d : Device) : Device :=
  match (d.group g).task with
  | .selectedRefetch i =>
    match directedFetch d i none with
    | .ok p => closeGroup g .selected (handAll g (.ending (some p) (figuresOf (d.group g))) d)
    | .error r => groupHalt g none (atLead g (fun c => showFetchFailure c r i) d)
  | _ => d

/-- GROUP_SELECTED_REFETCH (R129). -/
def execGroupSelectedRefetch (g : Grp) (s : State) : Host.Outcome State Fault Refusal :=
  s.act (happening fun d =>
    match (d.group g).task with
    | .selectedRefetch _ => paceGrant g (groupSelectedGrant g) d
    | _ => d)

/-! ### Members take what the Pace Controller hands them (R121, R127, R129, R130) -/

/-- MEMBER_TAKES_COPY (R121). -/
def execMemberTakesCopy (c : Chan) (s : State) : Host.Outcome State Fault Refusal :=
  s.act (happening fun d =>
    match (d.ctl c).message with
    | some (.copy p) => takeCopy c p d
    | _ => d)

/-- MEMBER_TAKES_ABORT (R127). -/
def execMemberTakesAbort (c : Chan) (s : State) : Host.Outcome State Fault Refusal :=
  s.act (happening fun d =>
    match (d.ctl c).message with
    | some (.abort f) => takeAbort (hostWaits c s.pending) c f d
    | _ => d)

/-- MEMBER_TAKES_ENDING (R129). -/
def execMemberTakesEnding (c : Chan) (s : State) : Host.Outcome State Fault Refusal :=
  s.act (happening fun d =>
    match (d.ctl c).message with
    | some (.ending p f) => takeEnding c p f d
    | _ => d)

/-- MEMBER_TAKES_HALT (R130). -/
def execMemberTakesHalt (c : Chan) (s : State) : Host.Outcome State Fault Refusal :=
  s.act (happening fun d =>
    match (d.ctl c).message with
    | some (.halt i f) => takeHalt (hostWaits c s.pending) c i f d
    | _ => d)

/-! ### The barrier (R123, R125) -/

/-- The Pace Controller adds a member to At-Barrier with its report; the first report of a point starts the barrier timer. The timer
that an earlier report of the point has started goes on where members that halted have left At-Barrier empty (assumption log 22). -/
def addReport (c : Chan) (r : Report) (x : Group) : Group :=
  { x with
    atBarrier := maskInsert x.atBarrier c, reports := x.reports.set c (some r)
    barrier := if x.atBarrier = 0 && x.barrier.isNone && !x.halting then some (1000 * x.barrierTimeout.toNat) else x.barrier }

/-- The Pace Controller takes a member report: a report of an ejected or aborted point is discarded, a halting group makes no
release, and the report that completes the set releases the barrier (R123, R130). -/
def takeReport (c : Chan) (d : Device) : Device :=
  match (d.ctl c).report, (d.ctl c).group with
  | some r, some g =>
    let d1 := modCtl c (fun k => { k with report := none }) d
    if (d.group g).task = .point ∧ inMask (d.group g).members c = true then
      let d2 := modGroup g (addReport c r) d1
      if !(d.group g).halting && barrierFull (d2.group g) then release g d2 else d2
    else d1
  | some _, none => modCtl c (fun k => { k with report := none }) d
  | none, _ => d

/-- MEMBER_REPORT (R123). -/
def execMemberReport (c : Chan) (s : State) : Host.Outcome State Fault Refusal := s.act (happening (takeReport c))

/-- The members not at the barrier when its timer expires. -/
def missing (x : Group) : BitVec 8 := x.members &&& ~~~x.atBarrier

/-- The barrier timer's expiry (R125): the group aborts where the lead is missing; else the missing members are ejected, and the
last ejection releases the barrier. -/
def takeBarrierTimeout (g : Grp) (d : Device) : Device :=
  let x := d.group g
  if x.barrier = some 0 then
    let d1 := modGroup g (fun x => { x with barrier := none }) d
    if match x.lead with
      | some c => inMask (missing x) c
      | none => false
    then groupAbort g d1
    else forMask (missing x) (eject g (some .ejected) .idle .none) d1
  else d

/-- BARRIER_TIMER_EXPIRY (R125). -/
def execBarrierTimerExpiry (g : Grp) (s : State) : Host.Outcome State Fault Refusal :=
  s.act (happening (takeBarrierTimeout g))

/-! ### REFCLK loss (R130, R164) -/

/-- GROUP_REFCLK_LOSS (R130, R164): every running group enters its halting condition, in the order A to D. Where several of them
close in it, their GROUP_ENDs are raised in that order: R130, R149 and R150 give none, and it is the model's choice (assumption log
45). -/
def execGroupRefclkLoss (s : State) : Host.Outcome State Fault Refusal :=
  s.act (happening fun d => if d.groupRefLoss then forGroups enterHalting { d with groupRefLoss := false } else d)

/-- The Pace Controller takes a member's report that it halted with cause REFCLK (R130). -/
def takeHaltReport (c : Chan) (d : Device) : Device :=
  if (d.ctl c).haltReport then
    let d1 := modCtl c (fun k => { k with haltReport := false }) d
    match runningGroup d c with
    | some g => enterHalting g d1
    | none => d1
  else d

/-- MEMBER_HALT_REPORT (R130). -/
def execMemberHaltReport (c : Chan) (s : State) : Host.Outcome State Fault Refusal := s.act (happening (takeHaltReport c))

end Sys2Proof.Machine
end

