-- ==== Sys2Proof/Machine/Clock.lean ====
section
/-! DEFINITION. Lanes, Timebase and REFCLK monitor (chapters 2, 6, 9): words sent and received, signal reports, ticks and
timers, REFCLK lost and returned; and their rows. -/

namespace Sys2Proof.Machine

open Sys2Proof

/-! ### Signal reports (R20, R29) -/

/-- Line activity on receive lane `r` starts or stops; a powered lane's report follows and reaches the checkers that watch it.
A reset does not reach the line, so the activity is kept while the part is held in reset. -/
def setActivity (r : Chan) (present : Bool) (d : Device) : Device :=
  let d1 : Device := { d with lanes := { d.lanes with activity := d.lanes.activity.set r present } }
  if !d.held && laneReport d r != laneReport d1 r then reportChanged r present d1 else d1

/-- SIGNAL_ABSENT (R29). -/
def execSignalAbsent (r : Chan) (s : State) : Host.Outcome State Fault Refusal := s.act (setActivity r false)

/-- SIGNAL_PRESENT (R29). -/
def execSignalPresent (r : Chan) (s : State) : Host.Outcome State Fault Refusal := s.act (setActivity r true)

/-! ### Ticks and timers (R158, R160, R161) -/

/-- Does the next REFCLK edge take the prescaler back to 0, and so produce a tick (R158)? -/
def endsTick (t : Timebase) : Bool := decide (t.tickLength ≤ t.prescaler + 1)

/-- One REFCLK edge at the prescaler and the monitor (R158, R159, R163): the tick in progress keeps the length it began with. -/
def countEdge (t : Timebase) : Timebase :=
  if endsTick t then { t with prescaler := 0, tickLength := t.refDivider.toNat, gap := 0 }
  else { t with prescaler := t.prescaler + 1, gap := 0 }

/-- The sub-millisecond count and the Millisecond Counter at a tick (R160). -/
def countTick (t : Timebase) : Timebase :=
  if t.subMs + 1 < 1000 then { t with subMs := t.subMs + 1 } else { t with subMs := 0, ms := t.ms + 1 }

/-- A running channel timer counts a tick; at 0 its expiry has been handed (R161). -/
def tickTimer (t : Option Timer) : Option Timer :=
  match t with
  | some x => some { x with left := x.left - 1 }
  | none => none

/-- A running barrier timer counts a tick. -/
def tickBarrier (t : Option Nat) : Option Nat :=
  match t with
  | some n => some (n - 1)
  | none => none

/-- What a tick advances, in the happening that produces it: the counts and every running timer (R160, R161). -/
def advance (d : Device) : Device :=
  { d with
    time := countTick d.time
    chans :=
      Eight.build fun c =>
        let k := d.chan c
        { k with ctl := { k.ctl with timer := tickTimer k.ctl.timer } }
    groups :=
      Four.build fun g =>
        let x := d.group g
        { x with barrier := tickBarrier x.barrier } }

/-! ### Words (R20, R25, R36, R110, R111) -/

/-- The word a transmit lane sends in a word time (R110): none from an OFF channel. A lane that loops a receive lane with signal
keeps the word it sent last: its next word comes with the next word received (R111). -/
def laneWord (d : Device) (t : Chan) : Option LaneWord :=
  if (d.ctl t).state = .off then none
  else
    match d.lanes.txSource.get t with
    | .off => some idleWord
    | .gen g => some (genWord ((d.ctl g).state = .off) (d.chan g).gen)
    | .loop r => if laneReport d r then d.lanes.tx.get t else some idleWord

/-- The lanes and generators in one word time: every lane sends its word, and every generator goes on by one (R20, R25, R110). -/
def sendWords (d : Device) : Device :=
  { d with
    lanes := { d.lanes with tx := Eight.build (laneWord d) }
    chans :=
      Eight.build fun c =>
        let k := d.chan c
        { k with gen := genAdvance (k.ctl.state = .off) k.gen } }

/-- A word time, which is one REFCLK edge, while the monitor shows REFCLK present: the words, the prescaler's count, and the
tick where the edge produces one (R20, R158, R160). -/
def wordTime (d : Device) : Device :=
  if d.time.present then
    let d1 : Device := { sendWords d with time := countEdge d.time }
    if endsTick d.time then advance d1 else d1
  else d

/-- WORD_TIME (R20). -/
def execWordTime (s : State) : Host.Outcome State Fault Refusal := s.act (happening wordTime)

/-- Several word times. -/
def wordTimes (n : Nat) (d : Device) : Device :=
  match n with
  | 0 => d
  | n + 1 => wordTimes n (wordTime d)

/-- The word times that the tick in progress still takes, the one that produces it among them (R158). -/
def edgesLeft (t : Timebase) : Nat := t.tickLength - (t.prescaler + 1) + 1

/-- A tick (R158): the REFCLK edges that complete it, each with its word time, while REFCLK is present (assumption log 10). -/
def tick (d : Device) : Device := if d.time.present then wordTimes (edgesLeft d.time) d else d

/-- TICK (R158). -/
def execTick (s : State) : Host.Outcome State Fault Refusal := s.act (happening tick)

/-- The lanes that loop receive lane `r` send the word it received (R111). -/
def loopWord (r : Chan) (w : LaneWord) (d : Device) : Device :=
  { d with
    lanes :=
      { d.lanes with
        tx :=
          Eight.build fun t =>
            if d.lanes.txSource.get t = .loop r ∧ (d.ctl t).state ≠ .off then some w else d.lanes.tx.get t } }

/-- A word received on lane `r`, delivered while the lane reports signal and REFCLK is present: each checker that watches the
lane tests or compares it by its own state (R20, R28 to R36). -/
def receiveWord (r : Chan) (w : LaneWord) (d : Device) : Device :=
  if d.time.present && laneReport d r then
    forChans
      (fun c d => if d.lanes.checkerSource.get c = r then atChecker c (chkWord (d.chan c).gen w) d else d)
      (loopWord r w d)
  else d

/-- RECEIVE_WORD (R36). -/
def execReceiveWord (r : Chan) (w : LaneWord) (s : State) : Host.Outcome State Fault Refusal :=
  s.act (happening (receiveWord r w))

/-! ### The REFCLK monitor (R163, R164) -/

/-- The monitor goes ABSENT (R163), no lane sends (R110), and the loss is handed to every Channel Controller and to the Pace
Controller (R164). Where an earlier loss has been handed and not yet taken, the manual is silent: the two count as one
(assumption log 41). -/
def refLost (d : Device) : Device :=
  if d.time.present then
    devRaise .refLost
      { d with
        time := { d.time with present := false, gap := 4 }
        lanes := { d.lanes with tx := Eight.build fun _ => none }
        chans :=
          Eight.build fun c =>
            let k := d.chan c
            { k with ctl := { k.ctl with refLoss := true } }
        groupRefLoss := true }
  else d

/-- REF_LOST (R163). -/
def execRefLost (s : State) : Host.Outcome State Fault Refusal := s.act (happening refLost)

/-- The monitor goes PRESENT (R163), and the return is handed to every checker that is not OFF (R164). The edge that brings it
is a rising edge of REFCLK like any other: the prescaler counts it, and it is a word time, the first with which emission
resumes (R20, R26, R158; assumption log 32). -/
def refOk (d : Device) : Device :=
  if d.time.present then d
  else
    devRaise .refOk
      (wordTime
        { d with
          time := { d.time with present := true }
          chans :=
            Eight.build fun c =>
              let k := d.chan c
              { k with chk := { k.chk with refReturn := k.chk.refReturn || k.chk.state ≠ .off } } })

/-- REF_OK (R163). -/
def execRefOk (s : State) : Host.Outcome State Fault Refusal := s.act (happening refOk)

/-- A checker takes the REFCLK return handed to it (R30). Where REFCLK is lost again before the checker has taken the return, the
manual is silent: the model keeps it handed, and since the checker's state holds while REFCLK is absent (R30) it is taken once
REFCLK is present (assumption log 41). -/
def takeRefReturn (c : Chan) (d : Device) : Device :=
  if (d.chan c).chk.refReturn && d.time.present then
    atChecker c (chkBreak (sourceReport d c)) (modChan c (fun k => { k with chk := { k.chk with refReturn := false } }) d)
  else d

/-- CHECKER_REFCLK_RETURN (R30). -/
def execCheckerRefclkReturn (c : Chan) (s : State) : Host.Outcome State Fault Refusal := s.act (happening (takeRefReturn c))

end Sys2Proof.Machine
end

