-- ==== Sys2Proof/Machine/Reset.lean ====
section
/-! DEFINITION. Power-on, RESET# and the end of a reset (chapter 10, R166, R167, R179), and their rows. -/

namespace Sys2Proof.Machine

open Sys2Proof

/-- The part held in reset: every block at its reset value, with nothing sampled yet (R166), and the monitor's gap count at 0
(R163). -/
def heldInReset (ram : List Host.Cell) (epoch : Nat) (waiting : List Access) (d : Device) : Device :=
  let d1 := Device.afterReset false 0 false d.lanes.activity ram epoch d.free
  { d1 with held := true, time := { d1.time with gap := 0 }, host := { d1.host with waiting := waiting } }

/-- Power is applied: the RAM's contents are unknown afterwards (R1, R75, R166). -/
def powerOn (d : Device) : Device := heldInReset [] (d.epoch + 1) [] d

/-- POWER_ON (R166). -/
def execPowerOn (s : State) : Host.Outcome State Fault Refusal := s.act powerOn

/-- RESET# goes low: all work is abandoned, the RAM stays as it is, and accesses that already wait go on waiting (R166,
R179). -/
def resetAssert (d : Device) : Device := heldInReset d.ram d.epoch d.host.waiting d

/-- RESET_ASSERT (R166). -/
def execResetAssert (s : State) : Host.Outcome State Fault Refusal := s.act resetAssert

/-- The end of a reset (R163, R166, R167, R179): reset values, the straps sampled, the monitor's first state, the strap preload,
and then the accesses that waited, in order. A part that is not held in reset has no reset to end. -/
def endOfReset (preloadLow : Bool) (ma : BitVec 2) (refclk : Bool) (d : Device) : Device :=
  if d.held then
    let d1 := Device.afterReset preloadLow ma refclk d.lanes.activity d.ram d.epoch d.free
    d.host.waiting.foldl (fun d a => serveAccess a d) (if preloadLow then beginPreload d1 else d1)
  else d

/-- END_OF_RESET (R167). -/
def execEndOfReset (preloadLow : Bool) (ma : BitVec 2) (refclk : Bool) (s : State) : Host.Outcome State Fault Refusal :=
  s.act (endOfReset preloadLow ma refclk)

end Sys2Proof.Machine
end

