-- ==== Sys2Proof/Machine/Dispatch.lean ====
section
/-! DEFINITION. exec: one arm per command of spec/opcode_table.json, in the table's order, each one direct call of its meaning. -/

namespace Sys2Proof.Machine

open Sys2Proof

/-- A command's effect on everything but the queue. -/
def exec (i : Instr) (s : State) : Host.Outcome State Fault Refusal :=
  match i with
  | .powerOn => Sys2Proof.Machine.execPowerOn s
  | .resetAssert => Sys2Proof.Machine.execResetAssert s
  | .endOfReset preloadLow ma refclk => Sys2Proof.Machine.execEndOfReset preloadLow ma refclk s
  | .enable c => Sys2Proof.Machine.execEnable c s
  | .disable c => Sys2Proof.Machine.execDisable c s
  | .startSweep c => Sys2Proof.Machine.execStartSweep c s
  | .startTrack c => Sys2Proof.Machine.execStartTrack c s
  | .single c => Sys2Proof.Machine.execSingle c s
  | .apply c => Sys2Proof.Machine.execApply c s
  | .stop c => Sys2Proof.Machine.execStop c s
  | .abort c => Sys2Proof.Machine.execAbort c s
  | .clearHalt c => Sys2Proof.Machine.execClearHalt c s
  | .clearCounters c => Sys2Proof.Machine.execClearCounters c s
  | .resetChannel c => Sys2Proof.Machine.execResetChannel c s
  | .commandBadCode v => Sys2Proof.Machine.execCommandBadCode v s
  | .snapshot => Sys2Proof.Machine.execSnapshot s
  | .preload => Sys2Proof.Machine.execPreload s
  | .abortPreload => Sys2Proof.Machine.execAbortPreload s
  | .deviceCommandBadCode v => Sys2Proof.Machine.execDeviceCommandBadCode v s
  | .registerWrite a v => Sys2Proof.Machine.execRegisterWrite a v s
  | .planTableWrite n w v => Sys2Proof.Machine.execPlanTableWrite n w v s
  | .ringControlWordWrite c p v => Sys2Proof.Machine.execRingControlWordWrite c p v s
  | .handback c => Sys2Proof.Machine.execHandback c s
  | .overrunCountWrite v => Sys2Proof.Machine.execOverrunCountWrite v s
  | .channelEventSetWrite v => Sys2Proof.Machine.execChannelEventSetWrite v s
  | .deviceEventSetWrite v => Sys2Proof.Machine.execDeviceEventSetWrite v s
  | .eventEnableWrite r v => Sys2Proof.Machine.execEventEnableWrite r v s
  | .membersWrite g v => Sys2Proof.Machine.execMembersWrite g v s
  | .leadWrite g v => Sys2Proof.Machine.execLeadWrite g v s
  | .txSourceWrite t v => Sys2Proof.Machine.execTxSourceWrite t v s
  | .checkerSourceWrite c v => Sys2Proof.Machine.execCheckerSourceWrite c v s
  | .generatorModeWrite v => Sys2Proof.Machine.execGeneratorModeWrite v s
  | .userWordWrite r v => Sys2Proof.Machine.execUserWordWrite r v s
  | .checkerModeWrite r v => Sys2Proof.Machine.execCheckerModeWrite r v s
  | .refdividerWrite v => Sys2Proof.Machine.execRefdividerWrite v s
  | .msCounterLowRead => Sys2Proof.Machine.execMsCounterLowRead s
  | .signalAbsent r => Sys2Proof.Machine.execSignalAbsent r s
  | .signalPresent r => Sys2Proof.Machine.execSignalPresent r s
  | .receiveWord r w => Sys2Proof.Machine.execReceiveWord r w s
  | .pointClosure c => Sys2Proof.Machine.execPointClosure c s
  | .lockGained c => Sys2Proof.Machine.execLockGained c s
  | .lockLost c => Sys2Proof.Machine.execLockLost c s
  | .signalLost c => Sys2Proof.Machine.execSignalLost c s
  | .tick => Sys2Proof.Machine.execTick s
  | .settleTimerExpiry c => Sys2Proof.Machine.execSettleTimerExpiry c s
  | .lockTimerExpiry c => Sys2Proof.Machine.execLockTimerExpiry c s
  | .intervalTimerExpiry c => Sys2Proof.Machine.execIntervalTimerExpiry c s
  | .barrierTimerExpiry g => Sys2Proof.Machine.execBarrierTimerExpiry g s
  | .refLost => Sys2Proof.Machine.execRefLost s
  | .refOk => Sys2Proof.Machine.execRefOk s
  | .channelRefclkLoss c => Sys2Proof.Machine.execChannelRefclkLoss c s
  | .groupRefclkLoss => Sys2Proof.Machine.execGroupRefclkLoss s
  | .checkerRefclkReturn c => Sys2Proof.Machine.execCheckerRefclkReturn c s
  | .planCheckRead c => Sys2Proof.Machine.execPlanCheckRead c s
  | .planCheckEnd c => Sys2Proof.Machine.execPlanCheckEnd c s
  | .walkFetch c => Sys2Proof.Machine.execWalkFetch c s
  | .selectedRefetch c => Sys2Proof.Machine.execSelectedRefetch c s
  | .singleReturnFetch c => Sys2Proof.Machine.execSingleReturnFetch c s
  | .fill c => Sys2Proof.Machine.execFill c s
  | .listRead c => Sys2Proof.Machine.execListRead c s
  | .candidateFetch c => Sys2Proof.Machine.execCandidateFetch c s
  | .reapplicationFetch c => Sys2Proof.Machine.execReapplicationFetch c s
  | .trackCloseFetch c => Sys2Proof.Machine.execTrackCloseFetch c s
  | .groupCheckRead g => Sys2Proof.Machine.execGroupCheckRead g s
  | .groupCheckEnd g => Sys2Proof.Machine.execGroupCheckEnd g s
  | .groupWalkFetch g => Sys2Proof.Machine.execGroupWalkFetch g s
  | .groupSelectedRefetch g => Sys2Proof.Machine.execGroupSelectedRefetch g s
  | .memberTakesCopy c => Sys2Proof.Machine.execMemberTakesCopy c s
  | .memberReport c => Sys2Proof.Machine.execMemberReport c s
  | .memberTakesAbort c => Sys2Proof.Machine.execMemberTakesAbort c s
  | .memberTakesEnding c => Sys2Proof.Machine.execMemberTakesEnding c s
  | .memberTakesHalt c => Sys2Proof.Machine.execMemberTakesHalt c s
  | .memberHaltReport c => Sys2Proof.Machine.execMemberHaltReport c s
  | .serialTransferDone data => Sys2Proof.Machine.execSerialTransferDone data s
  | .preloadRamWrite => Sys2Proof.Machine.execPreloadRamWrite s
  | .nack => Sys2Proof.Machine.execNack s
  | .retryWaitExpiry => Sys2Proof.Machine.execRetryWaitExpiry s
  | .transferTimeout => Sys2Proof.Machine.execTransferTimeout s
  | .preloadHandedEnable c => Sys2Proof.Machine.execPreloadHandedEnable c s
  | .preloadHandedStartSweep c => Sys2Proof.Machine.execPreloadHandedStartSweep c s
  | .wordTime => Sys2Proof.Machine.execWordTime s
  | .ringBodyWordWrite c p w v => Sys2Proof.Machine.execRingBodyWordWrite c p w v s

end Sys2Proof.Machine
end

