-- ==== Sys2Proof/Machine/Idle.lean ====
section
/-! DEFINITION. What happens while no command waits: the happenings of the part that the table has no row for. -/

namespace Sys2Proof.Machine

open Sys2Proof

/-- Can happening `i` come next: 0 to 7, a raise waits for that channel's event set; 8, one waits for the device event set; 9, the
Preload Controller stands between blocks? -/
def idleWaits (d : Device) (i : Fin 10) : Bool :=
  if h : i.val < 8 then !(d.chan ⟨i.val, h⟩).raised.isEmpty
  else if i.val = 8 then !d.raised.isEmpty
  else d.preload.work = .between

/-- The happening that comes next. Raises in one set are taken in order and raises in different sets in none (R149), and no rule
says when the Preload Controller begins to read its next block (R173, R178), so which comes first is open (assumption logs 33,
43). -/
def nextIdle (d : Device) : Option (Fin 10) :=
  [0, 1, 2, 3, 4, 5, 6, 7, 8, 9].findSome? fun k =>
    let i : Fin 10 := ⟨((Config.firstIdle d.free).val + k) % 10, Nat.mod_lt _ (by decide)⟩
    if idleWaits d i then some i else none

/-- One happening while no command waits, if there is one: the Event Unit takes a raise (R149, R156), or the Preload Controller
begins its next block. -/
def idle (d : Device) : Device :=
  match nextIdle d with
  | some i =>
    let d1 : Device := { d with free := d.free + 1 }
    if h : i.val < 8 then modChan ⟨i.val, h⟩ (takeRaises 1) d1 else if i.val = 8 then devTakeRaises 1 d1 else beginBlock d1
  | none => d

end Sys2Proof.Machine
end

