-- ==== Sys2Proof/Machine/Step.lean ====
section
/-! DEFINITION. One step: the command at the front of the queue is taken, and `exec` runs on the state with the queue's rest. -/

namespace Sys2Proof.Machine

open Sys2Proof

/-- One step. On an empty queue comes one of the happenings that the table has no row for: the Event Unit takes a raise (R149, R156),
or the Preload Controller begins to read its next block (R173, R178). Where neither waits, nothing happens, since everything else
is a row, the tick and the word time among them (assumption logs 11, 33, 43). -/
def step (s : State) : Host.Outcome State Fault Refusal :=
  match s.pending with
  | [] => .next { s with dev := idle s.dev }
  | i :: rest => exec i { s with pending := rest }

/-- The state with the command a word spells put at the front of the queue; as it is, where the word spells none. -/
def State.withFetchWord (s : State) (nbits w : Nat) : State :=
  match decodeTableWord nbits w with
  | some i => { s with pending := i :: s.pending }
  | none => s

end Sys2Proof.Machine
end

