-- ==== Sys2Proof/Safety.lean ====
section
/-! DEFINITION. What counts as a safe run, and the words the statements use: the rules the part keeps in every step, the
tables of refusals and of reset values as the manual orders them, the rows that act at one channel, and runs of several
commands. -/

namespace Sys2Proof.Machine

open Sys2Proof

/-! ### Safe runs -/

/-- A run is safe when every command in it answers a next state: the part has no fault and refuses nothing. -/
def safeRun (l : List Instr) (s : State) : Prop :=
  match l with
  | [] => True
  | i :: l => ∃ t, exec i s = .next t ∧ safeRun l t

/-- The state after several commands, taken one after another. -/
def runAll (l : List Instr) (s : State) : State :=
  match l with
  | [] => s
  | i :: l =>
    match exec i s with
    | .next t => runAll l t
    | .fault _ => s
    | .refused _ => s

/-! ### Rows -/

/-- The row of a channel command at channel `c` (R136). -/
def channelRow (k : Command) (c : Chan) : Instr :=
  match k with
  | .enable => .enable c
  | .disable => .disable c
  | .startSweep => .startSweep c
  | .startTrack => .startTrack c
  | .single => .single c
  | .apply => .apply c
  | .stop => .stop c
  | .abort => .abort c
  | .clearHalt => .clearHalt c
  | .clearCounters => .clearCounters c
  | .resetChannel => .resetChannel c

/-- The offset of an event enable register (R182, R183). -/
def enableAddress (r : EnableReg) : Nat :=
  match r with
  | .channel => 0x0154
  | .device => 0x001C

/-- The offset of the User Length or of a bus word of a User Word (R183). -/
def userAddress (r : UserReg) : Nat :=
  match r with
  | .length => 0x0138
  | .word q high => 0x013A + 4 * q.val + (if high then 2 else 0)

/-- The offset of Checker Mode, Fixed Pattern or Fixed Polarity (R183). -/
def checkerAddress (r : CheckerReg) : Nat :=
  match r with
  | .mode => 0x014A
  | .fixedPattern => 0x014C
  | .fixedPolarity => 0x014E

/-- The host access a row makes, if it makes one (R179). -/
def hostAccessOf (i : Instr) : Option Access :=
  match i with
  | .commandBadCode v => some (.write 0x0100 v)
  | .snapshot => some (.write 0x0008 1)
  | .preload => some (.write 0x0008 2)
  | .abortPreload => some (.write 0x0008 3)
  | .deviceCommandBadCode v => some (.write 0x0008 v)
  | .registerWrite a v => some (.write (2 * a.toNat) v)
  | .planTableWrite i w v => some (.write (0x0400 + 8 * i.val + 2 * w.val) v)
  | .ringControlWordWrite c p v => some (.write (0x0800 + 0x200 * c.val + 32 * p.val) v)
  | .ringBodyWordWrite c p w v => some (.write (0x0800 + 0x200 * c.val + 32 * p.val + 2 * (w.val + 1)) v)
  | .overrunCountWrite v => some (.write 0x0120 v)
  | .channelEventSetWrite v => some (.write 0x0152 v)
  | .deviceEventSetWrite v => some (.write 0x001A v)
  | .eventEnableWrite r v => some (.write (enableAddress r) v)
  | .membersWrite g v => some (.write (0x0080 + 0x10 * g.val) v)
  | .leadWrite g v => some (.write (0x0082 + 0x10 * g.val) v)
  | .txSourceWrite t v => some (.write (0x0030 + 2 * t.val) v)
  | .checkerSourceWrite c v => some (.write (0x0040 + 2 * c.val) v)
  | .generatorModeWrite v => some (.write 0x0134 v)
  | .userWordWrite r v => some (.write (userAddress r) v)
  | .checkerModeWrite r v => some (.write (checkerAddress r) v)
  | .refdividerWrite v => some (.write 0x0012 v)
  | .msCounterLowRead => some (.read 0x0014)
  | .powerOn | .resetAssert | .endOfReset _ _ _ | .enable _ | .disable _ | .startSweep _ | .startTrack _ | .single _
  | .apply _ | .stop _ | .abort _ | .clearHalt _ | .clearCounters _ | .resetChannel _ | .handback _ | .signalAbsent _
  | .signalPresent _ | .receiveWord _ _ | .pointClosure _ | .lockGained _ | .lockLost _ | .signalLost _ | .tick
  | .settleTimerExpiry _ | .lockTimerExpiry _ | .intervalTimerExpiry _ | .barrierTimerExpiry _ | .refLost | .refOk
  | .channelRefclkLoss _ | .groupRefclkLoss | .checkerRefclkReturn _ | .planCheckRead _ | .planCheckEnd _
  | .walkFetch _ | .selectedRefetch _ | .singleReturnFetch _ | .fill _ | .listRead _ | .candidateFetch _
  | .reapplicationFetch _ | .trackCloseFetch _ | .groupCheckRead _ | .groupCheckEnd _ | .groupWalkFetch _
  | .groupSelectedRefetch _ | .memberTakesCopy _ | .memberReport _ | .memberTakesAbort _ | .memberTakesEnding _
  | .memberTakesHalt _ | .memberHaltReport _ | .serialTransferDone _ | .preloadRamWrite | .nack | .retryWaitExpiry
  | .transferTimeout | .preloadHandedEnable _ | .preloadHandedStartSweep _ | .wordTime => none

/-- The rows that reach a part held in reset: the resets themselves, and the activity of a line (R20, R166). -/
def reachesHeld (i : Instr) : Bool :=
  match i with
  | .powerOn => true
  | .resetAssert => true
  | .endOfReset _ _ _ => true
  | .signalAbsent _ => true
  | .signalPresent _ => true
  | .enable _ | .disable _ | .startSweep _ | .startTrack _ | .single _ | .apply _ | .stop _ | .abort _ | .clearHalt _
  | .clearCounters _ | .resetChannel _ | .commandBadCode _ | .snapshot | .preload | .abortPreload
  | .deviceCommandBadCode _ | .registerWrite _ _ | .planTableWrite _ _ _ | .ringControlWordWrite _ _ _ | .handback _
  | .overrunCountWrite _ | .channelEventSetWrite _ | .deviceEventSetWrite _ | .eventEnableWrite _ _
  | .membersWrite _ _ | .leadWrite _ _ | .txSourceWrite _ _ | .checkerSourceWrite _ _ | .generatorModeWrite _
  | .userWordWrite _ _ | .checkerModeWrite _ _ | .refdividerWrite _ | .msCounterLowRead | .receiveWord _ _
  | .pointClosure _ | .lockGained _ | .lockLost _ | .signalLost _ | .tick | .settleTimerExpiry _ | .lockTimerExpiry _
  | .intervalTimerExpiry _ | .barrierTimerExpiry _ | .refLost | .refOk | .channelRefclkLoss _ | .groupRefclkLoss
  | .checkerRefclkReturn _ | .planCheckRead _ | .planCheckEnd _ | .walkFetch _ | .selectedRefetch _
  | .singleReturnFetch _ | .fill _ | .listRead _ | .candidateFetch _ | .reapplicationFetch _ | .trackCloseFetch _
  | .groupCheckRead _ | .groupCheckEnd _ | .groupWalkFetch _ | .groupSelectedRefetch _ | .memberTakesCopy _
  | .memberReport _ | .memberTakesAbort _ | .memberTakesEnding _ | .memberTakesHalt _ | .memberHaltReport _
  | .serialTransferDone _ | .preloadRamWrite | .nack | .retryWaitExpiry | .transferTimeout | .preloadHandedEnable _
  | .preloadHandedStartSweep _ | .wordTime | .ringBodyWordWrite _ _ _ _ => false

/-- The channel a row acts at, for the rows that can write to the channel's ring (R75). -/
def ringChannel (i : Instr) : Option Chan :=
  match i with
  | .disable c => some c
  | .stop c => some c
  | .abort c => some c
  | .resetChannel c => some c
  | .ringControlWordWrite c _ _ => some c
  | .ringBodyWordWrite c _ _ _ => some c
  | .signalLost c => some c
  | .channelRefclkLoss c => some c
  | .walkFetch c => some c
  | .selectedRefetch c => some c
  | .singleReturnFetch c => some c
  | .fill c => some c
  | .handback c => some c
  | .candidateFetch c => some c
  | .reapplicationFetch c => some c
  | .trackCloseFetch c => some c
  | .pointClosure c => some c
  | .lockLost c => some c
  | .lockTimerExpiry c => some c
  | .memberTakesAbort c => some c
  | .memberTakesHalt c => some c
  | .powerOn | .resetAssert | .endOfReset _ _ _ | .enable _ | .startSweep _ | .startTrack _ | .single _ | .apply _
  | .clearHalt _ | .clearCounters _ | .commandBadCode _ | .snapshot | .preload | .abortPreload
  | .deviceCommandBadCode _ | .registerWrite _ _ | .planTableWrite _ _ _ | .overrunCountWrite _
  | .channelEventSetWrite _ | .deviceEventSetWrite _ | .eventEnableWrite _ _ | .membersWrite _ _ | .leadWrite _ _
  | .txSourceWrite _ _ | .checkerSourceWrite _ _ | .generatorModeWrite _ | .userWordWrite _ _ | .checkerModeWrite _ _
  | .refdividerWrite _ | .msCounterLowRead | .signalAbsent _ | .signalPresent _ | .receiveWord _ _ | .lockGained _
  | .tick | .settleTimerExpiry _ | .intervalTimerExpiry _ | .barrierTimerExpiry _ | .refLost | .refOk
  | .groupRefclkLoss | .checkerRefclkReturn _ | .planCheckRead _ | .planCheckEnd _ | .listRead _ | .groupCheckRead _
  | .groupCheckEnd _ | .groupWalkFetch _ | .groupSelectedRefetch _ | .memberTakesCopy _ | .memberReport _
  | .memberTakesEnding _ | .memberHaltReport _ | .serialTransferDone _ | .preloadRamWrite | .nack | .retryWaitExpiry
  | .transferTimeout | .preloadHandedEnable _ | .preloadHandedStartSweep _ | .wordTime => none

/-- The rows that can write to the shared RAM by another way: a host write of any offset, the host's and the Preload
Controller's writes of the Plan Table, the accesses served at the end of a reset, the barrier timer, which can eject several
members, and power-on. -/
def otherRamRow (i : Instr) : Bool :=
  match i with
  | .powerOn => true
  | .endOfReset _ _ _ => true
  | .registerWrite _ _ => true
  | .planTableWrite _ _ _ => true
  | .preloadRamWrite => true
  | .barrierTimerExpiry _ => true
  | .resetAssert | .enable _ | .disable _ | .startSweep _ | .startTrack _ | .single _ | .apply _ | .stop _ | .abort _
  | .clearHalt _ | .clearCounters _ | .resetChannel _ | .commandBadCode _ | .snapshot | .preload | .abortPreload
  | .deviceCommandBadCode _ | .ringControlWordWrite _ _ _ | .handback _ | .overrunCountWrite _
  | .channelEventSetWrite _ | .deviceEventSetWrite _ | .eventEnableWrite _ _ | .membersWrite _ _ | .leadWrite _ _
  | .txSourceWrite _ _ | .checkerSourceWrite _ _ | .generatorModeWrite _ | .userWordWrite _ _ | .checkerModeWrite _ _
  | .refdividerWrite _ | .msCounterLowRead | .signalAbsent _ | .signalPresent _ | .receiveWord _ _ | .pointClosure _
  | .lockGained _ | .lockLost _ | .signalLost _ | .tick | .settleTimerExpiry _ | .lockTimerExpiry _
  | .intervalTimerExpiry _ | .refLost | .refOk | .channelRefclkLoss _ | .groupRefclkLoss | .checkerRefclkReturn _
  | .planCheckRead _ | .planCheckEnd _ | .walkFetch _ | .selectedRefetch _ | .singleReturnFetch _ | .fill _
  | .listRead _ | .candidateFetch _ | .reapplicationFetch _ | .trackCloseFetch _ | .groupCheckRead _
  | .groupCheckEnd _ | .groupWalkFetch _ | .groupSelectedRefetch _ | .memberTakesCopy _ | .memberReport _
  | .memberTakesAbort _ | .memberTakesEnding _ | .memberTakesHalt _ | .memberHaltReport _ | .serialTransferDone _
  | .nack | .retryWaitExpiry | .transferTimeout | .preloadHandedEnable _ | .preloadHandedStartSweep _ | .wordTime
  | .ringBodyWordWrite _ _ _ _ => false

/-- The offsets of ring `c` (R75). -/
def inRing (c : Chan) (a : Nat) : Prop := 0x0800 + 0x200 * c.val ≤ a ∧ a < 0x0800 + 0x200 * c.val + 0x200

/-- Is the command to be taken next a host write of a word of ring `c`? -/
def ringWriteNext (c : Chan) (waiting : List Instr) : Bool :=
  match waiting.head?.bind hostAccessOf with
  | some (.write a _) => decide (0x0800 + 0x200 * c.val ≤ a) && decide (a < 0x0800 + 0x200 * c.val + 0x200)
  | some (.read _) => false
  | none => false

/-! ### What the part keeps in every step -/

/-- What may follow a pending record in SWEEP. -/
def sweepAfter (a : After) : Bool :=
  match a with
  | .sweepPoint => true
  | .memberPoint _ => true
  | .selected _ => true
  | .noneUsable => true
  | .single => true
  | .candidate => false
  | .move => false

/-- The tasks of SWEEP (R44). -/
def sweepTask (t : Task) : Bool :=
  match t with
  | .check _ => true
  | .memberCheck => true
  | .memberWait => true
  | .walk _ => true
  | .settle _ => true
  | .lockwait _ => true
  | .dwell _ => true
  | .record _ a => sweepAfter a
  | .stall _ a => sweepAfter a
  | .selectedRefetch _ _ => true
  | .singleReturn _ => true
  | .hold => true
  | .idle | .wait | .listing _ _ | .candidateFetch | .reapply _ | .resettle | .closeFetch => false

/-- The tasks of TRACK (R44). -/
def trackTask (t : Task) : Bool :=
  match t with
  | .settle _ => true
  | .lockwait _ => true
  | .dwell _ => true
  | .record _ a => !sweepAfter a
  | .stall _ a => !sweepAfter a
  | .wait => true
  | .listing _ _ => true
  | .candidateFetch => true
  | .reapply _ => true
  | .resettle => true
  | .closeFetch => true
  | .idle | .check _ | .memberCheck | .memberWait | .walk _ | .selectedRefetch _ _ | .singleReturn _ | .hold => false

/-- Is the SELECTED summary the pending record? -/
def endsSelected (t : Task) : Bool :=
  match t with
  | .record _ (.selected _) => true
  | .stall _ (.selected _) => true
  | _ => false

/-- No work: phase NONE, Origin NONE, Stopping clear, no configuration in force, no anchor, no part in a group's sweep (R44,
R46, R96). -/
def noWork (k : Controller) : Prop :=
  k.task = .idle ∧ k.origin = .none ∧ k.stopping = false ∧ k.force = none ∧ k.anchor = none ∧ k.group = none ∧ k.message = none

/-- What holds of a controller and its front end in each channel state (R9, R43, R44, R46, R96). -/
def stateRule (k : Controller) (front : Settings) : Prop :=
  match k.state with
  | .off => noWork k ∧ front = restSettings ∧ k.current = none ∧ k.window = none
  | .idle => noWork k ∧ front = restSettings ∧ k.current = none ∧ k.window = none
  | .halted => noWork k ∧ front = restSettings ∧ k.current = none ∧ k.window = none
  | .applied => noWork k ∧ k.current.isSome = true ∧ k.window.isSome = true
  | .sweep =>
    sweepTask k.task = true ∧ (k.origin = .sweep ∨ k.origin = .single) ∧ k.window.isSome = true ∧ k.force.isSome = true
      ∧ k.anchor = none ∧ (k.message.isSome = true → k.group.isSome = true)
      ∧ (endsSelected k.task = true → k.current.isSome = true)
      ∧ ∀ q, k.prior = some q → q.applied.isSome = true → q.window.isSome = true
  | .track =>
    trackTask k.task = true ∧ k.origin = .track ∧ k.current.isSome = true ∧ k.window.isSome = true
      ∧ k.force.isSome = true ∧ k.anchor.isSome = true ∧ k.group = none ∧ k.message = none

/-- A channel keeps the rule of its state, and its checker is OFF while the channel is OFF and while its Checker Mode is OFF
(R28). -/
def chanRule (k : Channel) : Prop :=
  stateRule k.ctl k.front ∧ (k.ctl.state = .off ∨ k.chk.mode = .off → k.chk.state = .off)

/-- Every channel keeps the rule of its state; while a preload is in progress every channel is OFF or IDLE (R145, R168), and
the Preload Controller works only then (R168, R177). -/
def statesRule (d : Device) : Prop :=
  (∀ c, chanRule (d.chan c))
    ∧ (preloadActive d = true → ∀ c, (d.ctl c).state = .off ∨ (d.ctl c).state = .idle)
    ∧ (d.preload.work ≠ .idle → preloadActive d = true)

/-- An ending stands between its two fills only while its channel is in SWEEP and a host write of that channel's ring is the command to
be taken next (R86, R180; assumption log 18). -/
def endingRule (s : State) : Prop :=
  ∀ e, s.dev.ending = some e →
    s.dev.held = false ∧ (s.dev.ctl e.chan).state = .sweep ∧ ringWriteNext e.chan s.pending = true

/-- The membership rules (R115 to R117): a channel is a member of at most one group, a Lead is a member, a group in RUNNING or
STOPPING has a Lead, and an IDLE group has no point, nobody at its barrier and no barrier timer. -/
def groupsRule (d : Device) : Prop :=
  (∀ g h c, inMask (d.group g).members c = true → inMask (d.group h).members c = true → g = h)
    ∧ (∀ g c, (d.group g).lead = some c → inMask (d.group g).members c = true)
    ∧ (∀ g, (d.group g).state ≠ .idle → (d.group g).lead.isSome = true)
    ∧ ∀ g, (d.group g).state = .idle →
        (d.group g).task = .idle ∧ (d.group g).current = none ∧ (d.group g).atBarrier = 0 ∧ (d.group g).barrier = none

/-- A copy the Pace Controller has handed to a member is in range. -/
def messageInRange (m : Option GroupMessage) : Prop :=
  match m with
  | some (.copy p) => settingsInRange p.settings = true
  | some (.ending (some p) _) => settingsInRange p.settings = true
  | some (.ending none _) => True
  | some (.abort _) => True
  | some (.halt _ _) => True
  | none => True

/-- Every front end holds settings within every legal range (R5), and so does every copy on its way to one. -/
def frontsInRange (d : Device) : Prop :=
  ∀ c, settingsInRange (d.chan c).front = true ∧ messageInRange (d.ctl c).message

/-- The inequalities of the monitor counters while none of them is saturated (R40). -/
def monitorRule (m : Monitor) : Prop :=
  m.words ≠ BitVec.allOnes 48 → m.bits ≠ BitVec.allOnes 40 → m.errored ≠ BitVec.allOnes 32 →
    m.bits.toNat ≤ 32 * m.words.toNat ∧ m.errored.toNat ≤ m.words.toNat

/-- The monitor counters of every channel, and the copies its snapshot registers hold, keep the inequalities (R40, R41). -/
def monitorsRule (d : Device) : Prop := ∀ c, monitorRule (d.chan c).chk.monitor ∧ monitorRule (d.chan c).snap.monitor

/-- RefDivider holds 10 to 200 (R159). -/
def refDividerRule (d : Device) : Prop := 10 ≤ d.time.refDivider.toNat ∧ d.time.refDivider.toNat ≤ 200

/-! ### Tables of the manual -/

/-- The first condition of an ordered table that holds, with its status. -/
def firstHolding (table : List (Bool × LastStatus)) : Option LastStatus :=
  match table with
  | [] => none
  | (b, st) :: table => if b then some st else firstHolding table

/-- A member of a group, by the group's Members. -/
def isMember (d : Device) (c : Chan) : Bool := allGroups.any fun g => inMask (d.group g).members c

/-- A member of a group that is not its Lead. -/
def isFollower (d : Device) (c : Chan) : Bool :=
  allGroups.any fun g => inMask (d.group g).members c && (d.group g).lead != some c

/-- A member of a group in RUNNING or STOPPING. -/
def inRunning (d : Device) (c : Chan) : Bool :=
  allGroups.any fun g => inMask (d.group g).members c && (d.group g).state != .idle

/-- The group a channel leads has a member that is not IDLE (R119). -/
def groupNotReady (d : Device) (c : Chan) : Bool :=
  allGroups.any fun g =>
    inMask (d.group g).members c && allChans.any fun b => inMask (d.group g).members b && (d.ctl b).state != .idle

/-- The config check fails (R46, R93). -/
def configFails (x : SweepConfig) : Bool :=
  decide (1023 < x.settleTime.toNat) || x.lockTimeout == 0 || x.policy == 2 || x.policy == 3
    || x.track.interval == 0 || decide (60000 < x.track.interval.toNat) || x.track.lookAhead == 0
    || x.track.stepLimit == 0 || x.track.failLimit == 0

/-- The argument of a command is above 127 or outside a window (R66, R67). -/
def argOutside (d : Device) (c : Chan) (w : Window) : Bool :=
  decide (127 < (d.ctl c).command.toNat) || decide ((d.ctl c).command.toNat < w.first.val)
    || decide (w.last.val < (d.ctl c).command.toNat)

/-- The window registers of a channel, and the window SINGLE judges by: the window in force in APPLIED (R9). -/
def singleJudges (d : Device) (c : Chan) : Window :=
  match (d.ctl c).state, (d.ctl c).window with
  | .applied, some w => w
  | _, _ => { first := (d.chan c).config.winFirst, last := (d.chan c).config.winLast }

/-- The status a command is refused with where one of the conditions of its rule holds, in the rule's order, but for the failing
directed fetch of APPLY and SINGLE (R47 with R119, R63, R64, R66, R67, R71, R74, R94, R118, R128, R138). DISABLE and
RESET_CHANNEL are never refused. -/
def refusalOf (d : Device) (c : Chan) (k : Command) : Option LastStatus :=
  let st := (d.ctl c).state
  let x := (d.chan c).config.sweep
  match k with
  | .enable => firstHolding [(st != .off, .badState), (preloadActive d, .preloadBusy), (!d.time.present, .noRefclk)]
  | .disable => none
  | .resetChannel => none
  | .startSweep =>
    firstHolding
      [((st != .idle && st != .applied) || inRunning d c, .badState), (preloadActive d, .preloadBusy),
        (!d.time.present, .noRefclk), (isFollower d c, .notLead), (configFails x, .badConfig),
        (groupNotReady d c, .groupNotReady)]
  | .startTrack =>
    firstHolding
      [(st != .applied || inRunning d c, .badState), (!d.time.present, .noRefclk), (isFollower d c, .notLead),
        (isMember d c, .inGroup), (configFails x, .badConfig)]
  | .single =>
    firstHolding
      [((st != .idle && st != .applied) || inRunning d c, .badState), (preloadActive d, .preloadBusy),
        (!d.time.present, .noRefclk), (configFails x, .badConfig), (argOutside d c (singleJudges d c), .badArg)]
  | .apply =>
    firstHolding
      [((st != .idle && st != .applied) || inRunning d c, .badState), (preloadActive d, .preloadBusy),
        (!d.time.present, .noRefclk),
        (argOutside d c { first := (d.chan c).config.winFirst, last := (d.chan c).config.winLast }, .badArg)]
  | .stop =>
    firstHolding
      [(st != .sweep && st != .track, .badState), (st == .sweep && inRunning d c && isFollower d c, .notLead)]
  | .abort => firstHolding [(st != .sweep && st != .track, .badState)]
  | .clearHalt => firstHolding [(st != .halted, .badState)]
  | .clearCounters => firstHolding [(st == .off, .badState)]

/-- The channel with a refusal shown: Last Command, Last Status and CMD_REFUSED (R137). -/
def withRefusal (code : BitVec 8) (st : LastStatus) (k : Channel) : Channel :=
  { k with raised := k.raised ++ [.cmdRefused], ctl := { k.ctl with lastCommand := code, lastStatus := st } }

/-- The values after a reset of the device registers, group records and channel page (R6, R8, R21, R27, R45, R93, R109, R112,
R115, R132, R159, R167, R181 to R183): the Device Status shows the REFCLK monitor's first state, the straps and a strap
preload. -/
def resetRead (preloadLow : Bool) (ma : BitVec 2) (refclk : Bool) (offset : Nat) : Nat :=
  if offset = 0x0000 then 0x0318
  else if offset = 0x0002 then 1
  else if offset = 0x0004 then
    (if refclk then 1 else 0) + (if preloadLow then 2 else 0) + 4 * ma.toNat + (if preloadLow then 16 else 0)
  else if offset = 0x0006 then 1
  else if offset = 0x0012 then 100
  else if 0x0030 ≤ offset ∧ offset < 0x0040 ∧ offset % 2 = 0 then 8 + (offset - 0x0030) / 2
  else if 0x0040 ≤ offset ∧ offset < 0x0050 ∧ offset % 2 = 0 then (offset - 0x0040) / 2
  else if offset = 0x0050 then (if preloadLow then 1 else 0)
  else if 0x0080 ≤ offset ∧ offset < 0x00C0 ∧ offset % 16 = 2 then 8
  else if 0x0080 ≤ offset ∧ offset < 0x00C0 ∧ offset % 16 = 10 then 50
  else if offset = 0x0110 then 127
  else if offset = 0x0112 then 100
  else if offset = 0x0114 then 10
  else if offset = 0x0122 then 1000
  else if offset = 0x0124 then 1
  else if offset = 0x0126 then 4
  else if offset = 0x012C then 3
  else if offset = 0x0134 then 4
  else if offset = 0x0138 then 1
  else if offset = 0x014C then 3
  else 0

/-- The bits a configuration register of the channel page keeps of a written word (R8, R45, R81, R93, R24), for the registers
whose write stores the word's low bits and does nothing else. -/
def keptBits (offset : Nat) : Option BusWord :=
  match offset with
  | 0x010E => some 0x007F
  | 0x0110 => some 0x007F
  | 0x0112 => some 0xFFFF
  | 0x0114 => some 0x00FF
  | 0x0116 => some 0x0003
  | 0x0118 => some 0xFFFF
  | 0x011A => some 0x0001
  | 0x011C => some 0x0001
  | 0x0122 => some 0xFFFF
  | 0x0124 => some 0x0003
  | 0x0126 => some 0x000F
  | 0x0128 => some 0x0007
  | 0x012A => some 0x00FF
  | 0x012C => some 0x000F
  | 0x012E => some 0x0001
  | 0x0136 => some 0x0001
  | _ => none

/-- The destinations whose host writes are dropped during a preload (R176). -/
def droppedInPreload (offset : Nat) : Bool :=
  offset == 0x0012 || (decide (0x0020 ≤ offset) && decide (offset < 0x0050))
    || (decide (0x0080 ≤ offset) && decide (offset < 0x00C0) && (offset % 16 == 0 || offset % 16 == 2 || offset % 16 == 10))
    || (keptBits offset).isSome || offset == 0x0120 || offset == 0x0134
    || (decide (0x0138 ≤ offset) && decide (offset < 0x0150))
    || (decide (0x0400 ≤ offset) && decide (offset < 0x1800))

/-- What a change of its lane's report does at a channel's checker (R29, R39). -/
def hearReport (present : Bool) (k : Channel) : Channel :=
  match k.chk.state, present with
  | .nosignal, true => { k with chk := chkFresh k.chk, raised := k.raised ++ [.signalBack] }
  | .search, false =>
    { k with
      chk := { chkClose k.chk with state := .nosignal }, raised := k.raised ++ [.signalLoss],
      ctl := { k.ctl with inbox := k.ctl.inbox ++ [.signalLost] } }
  | .locked, false =>
    { k with
      chk := { chkClose k.chk with state := .nosignal }, raised := k.raised ++ [.signalLoss],
      ctl := { k.ctl with inbox := k.ctl.inbox ++ [.signalLost] } }
  | _, _ => k

/-- What a write that restarts the search does at a channel's checker (R30). -/
def restartSearch (k : Channel) : Channel :=
  match k.chk.state with
  | .search => { k with chk := chkFresh k.chk }
  | .locked =>
    { k with
      chk := chkFresh (chkClose k.chk), raised := k.raised ++ [.unlock],
      ctl := { k.ctl with inbox := k.ctl.inbox ++ [.lockLost] } }
  | _ => k

/-- What a break in its stream does at a channel's checker, with the report that then stands (R30: a change of source, the
return of REFCLK). -/
def streamBreak (report : Bool) (k : Channel) : Channel :=
  match k.chk.state, report with
  | .off, _ => k
  | .nosignal, _ => hearReport report k
  | _, true => restartSearch k
  | _, false => hearReport false k

/-- The point record of a point of channel `k` on the copy `p` (R53, R100, R122): the point counters where the point ended in
DWELL, zeros where it ended before. -/
def pointRecordFor (k : Channel) (p : Copy) (inDwell : Bool) (o : PointOutcome) (ms : BitVec 32) : PointRecord :=
  { origin := k.ctl.origin, group := k.ctl.group.isSome, index := p.index, seq := k.ctl.seq,
    words := if inDwell then k.chk.point.words else 0, bits := if inDwell then k.chk.point.bits else 0,
    errored := if inDwell then k.chk.point.errored else 0,
    firstError := if inDwell then k.chk.point.firstError else none, tag := p.tag, stamp := ms.setWidth 16, outcome := o }

/-- A channel whose point on the copy `p` ends with an outcome that goes to RECORD (R54, R68, R100, R122): counting closed, any
timer cancelled, the record pending; a solo sweep's point is folded, a member's is reported later, a candidate's is kept. -/
def pointEnded (k : Channel) (p : Copy) (inDwell : Bool) (o : PointOutcome) (ms : BitVec 32) : Channel :=
  let r := pointRecordFor k p inDwell o ms
  let complete : Bool := o = .complete
  let ctl : Controller :=
    match k.ctl.origin, k.ctl.group with
    | .none, _ => k.ctl
    | .single, _ => { k.ctl with timer := none, task := .record (.point r) .single }
    | .sweep, some _ =>
      { k.ctl with
        timer := none, task := .record (.point r) (.memberPoint { outcome := o, bits := r.bits, words := r.words }) }
    | .sweep, none =>
      { k.ctl with
        timer := none, task := .record (.point r) .sweepPoint,
        selection :=
          foldPoint p.index complete (complete && decide (r.bits ≤ (forceOf k.ctl).passLimit.toNat)) r.bits r.words
            k.ctl.selection }
    | .track, _ =>
      { k.ctl with
        timer := none, task := .record (.point r) .candidate,
        cycle :=
          { k.ctl.cycle with
            kept := k.ctl.cycle.kept ++ [{ index := p.index, complete := complete, bits := r.bits, words := r.words }] } }
  { k with chk := chkClose k.chk, ctl := ctl }

/-! ### Changes of several channels, and endings, written out -/

/-- The part with every channel changed, each by its own number. -/
def mapChans (f : Chan → Channel → Channel) (d : Device) : Device := { d with chans := Eight.build fun c => f c (d.chan c) }

/-- The part with every channel that the Page Mask selects changed (R133). -/
def mapSelected (f : Channel → Channel) (d : Device) : Device :=
  mapChans (fun c k => if inMask d.host.pageMask c then f k else k) d

/-- BAD_WRITE pending, the Write Fault register with the cause and the offset (R147). -/
def withBadWrite (cause : WriteFault) (offset : Nat) (d : Device) : Device :=
  { d with
    host := { d.host with fault := cause, faultOffset := BitVec.ofNat 16 offset }
    raised := d.raised ++ [.badWrite] }

/-- Offsets whose write is ignored: read-only registers and unlisted offsets (R133, R147, R181 to R183). -/
def ignoredOffset (offset : Nat) : Bool :=
  [0x0000, 0x0002, 0x0004, 0x000C, 0x000E, 0x0010, 0x0014, 0x0016, 0x0018, 0x001E, 0x0104, 0x0106, 0x0108, 0x010A, 0x010C,
      0x011E, 0x0130, 0x0132, 0x0150].contains offset
    || (decide (0x0050 ≤ offset) && decide (offset < 0x0080))
    || (decide (0x0080 ≤ offset) && decide (offset < 0x00C0) && offset % 16 != 0 && offset % 16 != 2 && offset % 16 != 10)
    || (decide (0x00C0 ≤ offset) && decide (offset < 0x0100)) || (decide (0x0156 ≤ offset) && decide (offset < 0x0400))
    || decide (0x1800 ≤ offset)

/-- A controller in state `st` with its work dropped (R46, R65, R107). -/
def atRestIn (st : ChanState) (k : Controller) : Controller :=
  { k with
    state := st, task := .idle, origin := .none, stopping := false, current := none, window := none, force := none, prior := none,
    timer := none, anchor := none, cycle := { list := [], position := 0, kept := [] }, group := none, message := none,
    report := none }

/-- A channel that returns to rest in state `st`: work dropped, rest settings, counting closed (R5, R52, R65). -/
def restedIn (st : ChanState) (k : Channel) : Channel :=
  { k with front := restSettings, ctl := atRestIn st k.ctl, chk := { k.chk with point := { k.chk.point with target := none } } }

/-- A channel that enters APPLIED with the entry, current index and window it has (R46, R60, R105). -/
def nowApplied (k : Channel) : Channel :=
  { k with
    ctl :=
      { k.ctl with
        state := .applied, task := .idle, origin := .none, stopping := false, force := none, prior := none, timer := none,
        anchor := none, cycle := { list := [], position := 0, kept := [] }, group := none, message := none, report := none }
    chk := { k.chk with point := { k.chk.point with target := none } } }

/-- The Selection Record when a solo sweep ends: the point under way folded as measured and not usable (R54, R55). -/
def selectionAtEnd (k : Controller) : Selection :=
  match k.origin, k.task.underWay with
  | .sweep, some (p, _) => foldPoint p.index false false 0 0 k.selection
  | _, _ => k.selection

/-- The pending point record of an ending (R62, R86, R106, R107): of the point under way with the outcome `o`, but for a
candidate's under Record Mode MOVES, or a record not yet written; a pending summary is none. -/
def endingPointOf (k : Channel) (o : PointOutcome) (ms : BitVec 32) : List Record :=
  match k.ctl.task.underWay, k.ctl.task.pendingRecord with
  | some (p, inDwell), _ =>
    if k.ctl.origin = .track ∧ (forceOf k.ctl).track.recordMode = .moves then []
    else [.point (pointRecordFor k p inDwell o ms)]
  | none, some (.summary _) => []
  | none, some r => [r]
  | none, none => []

/-- The summary of a solo sweep past its check that ends by ABORT or by a halt; it replaces a SELECTED or NONE_USABLE summary that
waits (R61, R62, R86). -/
def endingSummaryOf (k : Channel) (so : SweepOutcome) (cause : HaltCause) (at_ : BitVec 16) : List Record :=
  if k.ctl.origin = .sweep ∧ k.ctl.task.inCheck = false then
    match k.ctl.task.pendingRecord with
    | some (.summary y) => [.summary { y with outcome := so, selected := 0, cause := cause, stamp := at_ }]
    | _ =>
      let x := selectionAtEnd k.ctl
      [.summary
        { group := false, outcome := so, policy := (forceOf k.ctl).policy, selected := 0, measured := x.measured,
          usable := x.usable, runFirst := x.longestFirst, runLength := x.longestLength, seq := k.ctl.seq, cause := cause,
          stamp := at_ }]
  else []

/-- Several ending writes, in order (R86). -/
def writeAll (c : Chan) (rs : List Record) (d : Device) : Device :=
  match rs with
  | [] => d
  | r :: rs => writeAll c rs (endingWrite c r d)

/-- What follows an ending's records: a halt is rest, HALTED with the cause, SWEEP_END where a sweep had begun, and HALT, with a group
member's report of it on its way where `reports` (R65, R107, R130); an abort is rest, IDLE, and SWEEP_END where a sweep had begun
(R64, R127). -/
def closedBy (k : Closing) (swept : Bool) (c : Chan) (d : Device) : Device :=
  let ends : List ChanEvent := if swept then [.sweepEnd] else []
  match k with
  | .halt cause reports =>
    modChan c (fun y =>
      { restedIn .halted y with
        raised := y.raised ++ ends ++ [.halt]
        ctl := { atRestIn .halted y.ctl with haltCause := cause, haltReport := reports || y.ctl.haltReport } }) d
  | .abort => modChan c (fun y => { restedIn .idle y with raised := y.raised ++ ends }) d

/-- An ending with its records, each of them a grant (R86, R180): all of them and then what follows; but of two records only the first,
where the host waits with a write of the channel's ring, which is served before the other. -/
def endsWith (waits : Bool) (c : Chan) (rs : List Record) (k : Closing) (swept : Bool) (d : Device) : Device :=
  match waits, rs with
  | true, [r, y] => { endingWrite c r d with ending := some { chan := c, summary := y, closing := k } }
  | _, rs => closedBy k swept c (writeAll c rs d)

/-- A halt of a solo channel's work with a cause, once its ending records are given (R65, R107): rest, HALTED, the cause,
SWEEP_END where a sweep had begun, HALT. -/
def haltWith (c : Chan) (rs : List Record) (cause : HaltCause) (swept : Bool) (d : Device) : Device :=
  closedBy (.halt cause false) swept c (writeAll c rs d)

/-- A sweep past its check (R48). -/
def sweepUnderWay (k : Controller) : Bool := k.origin = .sweep && !k.task.inCheck

/-- The channel goes on from an applied entry: SETTLE with its timer, or, with a Settle Time of 0, LOCKWAIT or DWELL in the same
happening (R50, R51). -/
def settleFrom (c : Chan) (p : Copy) (d : Device) : Device :=
  let n := (forceOf (d.ctl c)).settleTime.toNat
  let d1 := modCtl c (fun k => { k with task := .settle p, timer := some { kind := .settle, left := n } }) d
  if n = 0 then enterLockwait c p d1 else d1

/-- A solo sweep's ending by a completed window or by STOP (R59, R60). -/
def sweepCloses (c : Chan) (d : Device) : Device :=
  modChan c (fun k =>
    match select (forceOf k.ctl).policy k.ctl.selection with
    | some i => { k with ctl := { k.ctl with task := .selectedRefetch i (d.time.ms.setWidth 16) } }
    | none =>
      { k with
        front := restSettings
        ctl :=
          { k.ctl with
            current := none, timer := none,
            task := .record
              (.summary
                { group := false, outcome := .noneUsable, policy := (forceOf k.ctl).policy, selected := 0,
                  measured := k.ctl.selection.measured, usable := k.ctl.selection.usable,
                  runFirst := k.ctl.selection.longestFirst, runLength := k.ctl.selection.longestLength, seq := k.ctl.seq,
                  cause := .none, stamp := d.time.ms.setWidth 16 })
              .noneUsable } }) d

/-- The point record of a fetch that failed validation (R53). -/
def invalidPointFor (k : Channel) (i : Idx) (ms : BitVec 32) : Record :=
  .point
    { origin := k.ctl.origin, group := k.ctl.group.isSome, index := i, seq := k.ctl.seq, words := 0, bits := 0, errored := 0,
      firstError := none, tag := 0, stamp := ms.setWidth 16, outcome := .invalidEntry }

/-- A channel's Plan Check register after a fetch that failed (R18). -/
def fetchFailed (r : CheckResult) (i : Idx) (k : Channel) : Channel :=
  { k with ctl := { k.ctl with planCheck := { result := r, index := i, fetch := true } } }

/-- The summary a member writes of a group's sweep (R127, R129, R130). -/
def memberSummaryOf (k : Channel) (f : Figures) (o : SweepOutcome) (selected : Idx) (cause : HaltCause) (ms : BitVec 32) :
    Record :=
  .summary
    { group := true, outcome := o, policy := f.policy, selected := selected, measured := f.measured, usable := f.usable,
      runFirst := f.runFirst, runLength := f.runLength, seq := k.ctl.seq, cause := cause, stamp := ms.setWidth 16 }

/-- A group record at the end of its sweep: IDLE, everything the Pace Controller held for the sweep let go, and Last Outcome where
the sweep had begun (R120, R127, R129, R130). -/
def groupClosed (o : Option SweepOutcome) (x : Group) : Group :=
  { x with
    state := .idle, current := none, atBarrier := 0, lastOutcome := if o.isSome then o else x.lastOutcome, task := .idle,
    begun := false, halting := false, force := none, window := none, reports := Eight.build fun _ => none, barrier := none }

/-- The end of a group's sweep at the Pace Controller: the members that take part are handed `m`, halt reports on their way are let
go, the record closes, GROUP_END is raised where the sweep had begun, and the Pace Controller's request for the group, if it
holds one, is for the next waiting group (R120, R127, R129, R130, R180). -/
def groupSweepEnds (g : Grp) (o : Option SweepOutcome) (m : Option GroupMessage) (d : Device) : Device :=
  let x := d.group g
  let e :=
    paceRefresh
      (modGroup g (groupClosed o)
        (mapChans (fun c k =>
          if inMask x.members c then
            { k with
              ctl :=
                { k.ctl with
                  haltReport := false,
                  message := if k.ctl.group = some g ∧ m.isSome = true then m else k.ctl.message } }
          else k) d))
  if o.isSome then { e with raised := e.raised ++ [.groupEnd g] } else e

/-- A group comes to its selection (R129): NONE_USABLE handed out, or the re-fetch of the selected index. -/
def groupSelects (g : Grp) (d : Device) : Device :=
  let x := d.group g
  match select (figuresOf x).policy x.selection with
  | none => groupSweepEnds g (some .noneUsable) (some (.ending none (figuresOf x))) d
  | some i => paceRefresh (modGroup g (fun x => { x with task := .selectedRefetch i }) d)

/-- A halting group closes where no member remains in the sweep (R130): with Last Outcome HALTED and GROUP_END once the sweep has
begun, and with its check shown ABANDONED at the lead before. -/
def haltedCloses (g : Grp) (d : Device) : Device :=
  if allChans.any fun b => inMask (d.group g).members b && (d.ctl b).group = some g then d
  else if (d.group g).begun then groupSweepEnds g (some .halted) none d
  else
    groupSweepEnds g none none
      (match (d.group g).lead with
      | some l => modCtl l (fun y => { y with planCheck := { y.planCheck with result := .abandoned, fetch := false } }) d
      | none => d)

/-- A group in its halting condition (R130): its barrier timer is cancelled, and its request to the RAM Arbiter, if it has one, is
given up. -/
def haltingFrom (g : Grp) (d : Device) : Device :=
  paceRefresh (modGroup g (fun y => { y with halting := true, barrier := none }) d)

/-- What a group does that REFCLK loss makes halt (R130): it enters its halting condition, and where no member remains in the sweep
it closes. -/
def groupHalts (g : Grp) (d : Device) : Device := haltedCloses g (haltingFrom g d)

/-- The release of a group's barrier (R123, R124, R129): the point folded on the sums of the reports of the members present, the
timer cancelled and At-Barrier emptied; then the walk goes on behind the point, every member that takes part waiting for the next
copy, or the group comes to its selection, where it is STOPPING or its window is done. -/
def barrierReleased (g : Grp) (d : Device) : Device :=
  let x := d.group g
  let rs := (allChans.filter (inMask x.members)).filterMap fun b => x.reports.get b
  let usable := rs.all fun r => r.outcome = .complete
  let limit := (x.force.getD SweepConfig.default).passLimit.toNat
  let scored :=
    modGroup g (fun z =>
      { z with
        atBarrier := 0, reports := Eight.build fun _ => none, barrier := none
        selection :=
          match x.current with
          | some i =>
            foldPoint i usable (usable && rs.all fun r => decide (r.bits ≤ limit)) (rs.map fun r => r.bits).sum
              (rs.map fun r => r.words).sum x.selection
          | none => x.selection }) d
  let goesOn :=
    mapChans (fun b k =>
      if inMask x.members b = true ∧ k.ctl.group = some g then { k with ctl := { k.ctl with task := .memberWait } } else k) scored
  if x.state = .stopping then groupSelects g scored
  else
    match x.current, x.window with
    | some i, some w =>
      if i.val < w.last.val then paceRefresh (modGroup g (fun z => { z with task := .walk (idxOf (i.val + 1)) }) goesOn)
      else groupSelects g goesOn
    | some _, none => goesOn
    | none, _ => scored

/-- What follows an ejection at the group (R123, R126, R130): a halting group in which no member remains closes; the barrier timer is
cancelled where At-Barrier is empty; and the barrier is released where every member that remains is at it. -/
def groupGoesOn (g : Grp) (d : Device) : Device :=
  let x := d.group g
  if x.halting then haltedCloses g d
  else if x.atBarrier = 0 then modGroup g (fun y => { y with barrier := none }) d
  else if allChans.all fun b => !inMask x.members b || inMask x.atBarrier b then barrierReleased g d
  else d

/-- A point record that waits for its fill, the only one a channel writes on its way to OFF where it is a group's member (R126): no
record is composed for a point under way. -/
def pendingPointOf (k : Channel) : List Record :=
  match k.ctl.task.underWay, k.ctl.task.pendingRecord with
  | none, some (.point r) => [.point r]
  | none, some (.move r) => [.move r]
  | none, some (.summary _) => []
  | none, none => []
  | some _, _ => []

/-- A member ejected from its group's sweep in state `st` (R126): the record of its point, with the outcome `o` where one is under way
(none composes no record), rest, out of Members and At-Barrier, EJECTED, and SWEEP_END where the sweep had begun; HALTED, with
the cause and HALT after them. Then what follows at the group. A member that takes no part any more, since it has halted, keeps its
state and ends no sweep again, and its halt report, where it is on its way, is taken with the ejection: the group is then in its
halting condition, and folds no point behind the member's summary (R89, R130; assumption log 23). -/
def ejectedFrom (g : Grp) (o : Option PointOutcome) (st : ChanState) (cause : HaltCause) (c : Chan) (d : Device) : Device :=
  let k := d.chan c
  let d := if k.ctl.haltReport then haltingFrom g d else d
  let part : Bool := k.ctl.group = some g
  let records :=
    match o with
    | some o => endingPointOf k o d.time.ms
    | none => pendingPointOf k
  let events : List ChanEvent :=
    [.ejected] ++ (if part && (d.group g).begun then [.sweepEnd] else []) ++ (if part && st = .halted then [.halt] else [])
  groupGoesOn g
    (modChan c
      (fun y =>
        { y with
          raised := y.raised ++ events
          ctl := { y.ctl with haltReport := false, haltCause := if part && st = .halted then cause else y.ctl.haltCause } })
      (modGroup g
        (fun y =>
          { y with
            members := y.members &&& ~~~(BitVec.ofNat 8 (2 ^ c.val)), atBarrier := y.atBarrier &&& ~~~(BitVec.ofNat 8 (2 ^ c.val)),
            reports := y.reports.set c none })
        (if part then modChan c (restedIn st) (writeAll c records d) else d)))

/-- A group's check abandoned by its lead `c` (R120): ABANDONED at the lead, and the group and every member that takes part return to
IDLE. -/
def checkAbandoned (g : Grp) (c : Chan) (d : Device) : Device :=
  groupSweepEnds g none none
    (mapChans (fun b y => if inMask (d.group g).members b = true ∧ y.ctl.group = some g then restedIn .idle y else y)
      (modCtl c (fun y => { y with planCheck := { y.planCheck with result := .abandoned, fetch := false } }) d))

/-- Nothing that a group's end has handed a channel waits to be taken; the copy of a point may. -/
def noEndHanded (k : Controller) : Prop := ∀ m, k.message = some m → ∃ p, m = .copy p

/-! ### Entering OFF, written out -/

/-- What a solo channel's work ends with before the channel enters OFF (R72, R108): a check ABANDONED, and else the ending of a
sweep, SINGLE or track as by ABORT, at rest, with SWEEP_END where a sweep had begun. -/
def endedForOff (c : Chan) (d : Device) : Device :=
  let k := d.chan c
  if k.ctl.task.inCheck then
    modChan c (restedIn .idle)
      (modCtl c (fun y => { y with planCheck := { y.planCheck with result := .abandoned, fetch := false } }) d)
  else
    let e := modChan c (restedIn .idle)
      (writeAll c (endingPointOf k .aborted d.time.ms ++ endingSummaryOf k .aborted .none (d.time.ms.setWidth 16))
        (modCtl c (fun y => { y with selection := selectionAtEnd k.ctl }) d))
    if sweepUnderWay k.ctl then raise c .sweepEnd e else e

/-- What a member of a running group does before it enters OFF (R72, R120, R126, R127): the lead abandons the group's check, or aborts
the group, with the point record it has pending and its ABORTED summary, rest and SWEEP_END of its own; another member is ejected. A
lead that takes no part any more, since it has halted, aborts the group with no record of its own (assumption log 23). -/
def leftForOff (g : Grp) (c : Chan) (d : Device) : Device :=
  let x := d.group g
  let k := d.chan c
  if x.lead = some c then
    if x.begun then
      let e := groupSweepEnds g (some .aborted) (some (.abort (figuresOf x))) d
      if k.ctl.group = some g then
        endsWith false c (pendingPointOf k ++ [memberSummaryOf k (figuresOf x) .aborted 0 .none d.time.ms]) .abort true e
      else e
    else checkAbandoned g c d
  else ejectedFrom g none .idle .none c d

/-- A channel that enters OFF (R20, R28, R29, R39, R72): rest settings, its checker OFF, which hands lock lost where it was LOCKED,
its lane sending nothing, and signal absent at every other checker that watches the lane. -/
def poweredDown (c : Chan) (d : Device) : Device :=
  mapChans
    (fun b k =>
      if b = c then
        { k with
          front := restSettings, chk := chkEnterOff k.chk
          ctl := { atRestIn .off k.ctl with inbox := if k.chk.state = .locked then [.lockLost] else [] } }
      else if d.time.present = true ∧ d.lanes.checkerSource.get b = c ∧ d.lanes.activity.get c = true then hearReport false k
      else k)
    { d with lanes := { d.lanes with tx := d.lanes.tx.set c none } }

/-- The raises of a channel that its own controller did not make: the checker's and the Lane Matrix's (R149). -/
def raisedByOthers (k : Channel) : List ChanEvent :=
  k.raised.filter fun e => [.lock, .unlock, .signalLoss, .signalBack, .routeChanged].contains e

/-- A channel after RESET_CHANNEL (R73, R157): everything at its reset value but its configuration and generator, a REFCLK loss
handed and not yet taken, the lock lost that its LOCKED checker hands, and the raises `raised` that are still to be taken. -/
def resetAt (raised : List ChanEvent) (k : Channel) : Channel :=
  { Channel.default with
    config := k.config, gen := k.gen, raised := raised
    chk :=
      { Checker.default with
        mode := k.chk.mode, fixedPattern := k.chk.fixedPattern, fixedInverted := k.chk.fixedInverted }
    ctl :=
      { Controller.default with
        lastCommand := 0x0B, lastStatus := .accepted, refLoss := k.ctl.refLoss
        inbox := if k.chk.state = .locked then [.lockLost] else [] } }

/-- A group record that a channel has left (R131). -/
def leftBy (c : Chan) (x : Group) : Group :=
  if inMask x.members c then
    { x with
      members := x.members &&& ~~~(BitVec.ofNat 8 (2 ^ c.val)), atBarrier := x.atBarrier &&& ~~~(BitVec.ofNat 8 (2 ^ c.val)),
      reports := x.reports.set c none, lead := if x.lead = some c then none else x.lead }
  else x

/-! ### Events and ticks, written out -/

/-- No raise waits for any event set. -/
def noRaiseWaits (d : Device) : Prop := d.raised = [] ∧ ∀ c, (d.chan c).raised = []

/-- A channel's event set once raises have been taken in it, in order (R148, R149). -/
def withRaises (es : List ChanEvent) (x : BitVec 14) : BitVec 14 :=
  es.foldl (fun x e => x ||| BitVec.ofNat 14 (2 ^ chanEventBit e)) x

/-- The device event set once raises have been taken in it, in order (R148, R150). -/
def withDeviceRaises (es : List DevEvent) (x : BitVec 9) : BitVec 9 :=
  es.foldl (fun x e => x ||| BitVec.ofNat 9 (2 ^ devEventBit e)) x

/-- A tick at the counts and at every running timer (R160, R161). -/
def ticked (d : Device) : Device :=
  mapChans (fun _ k => { k with ctl := { k.ctl with timer := k.ctl.timer.map fun x => { x with left := x.left - 1 } } })
    { d with
      time :=
        if d.time.subMs + 1 < 1000 then { d.time with subMs := d.time.subMs + 1 }
        else { d.time with subMs := 0, ms := d.time.ms + 1 }
      groups := Four.build fun g => { d.group g with barrier := (d.group g).barrier.map fun n => n - 1 } }

/-! ### The preload's blocks, written out -/

/-- Does a payload length fit a type code of 1 to 6 (R173, R185)? -/
def blockLengthFits (code n : Nat) : Bool :=
  match code with
  | 1 => decide (8 ≤ n) && decide (n ≤ 64) && n % 8 == 0
  | 2 => n == 16
  | 3 => n == 48
  | 4 => n == 16
  | 5 => n == 2
  | _ => n == 32

/-- Is a target in range for a type code of 1 to 6 (R173, R185)? -/
def blockTargetFits (code target : Nat) : Bool :=
  match code with
  | 1 => decide (target < 128)
  | 2 => target == 0
  | 3 => decide (target < 8)
  | 4 => target == 0
  | 5 => decide (target < 4)
  | _ => decide (target < 8)

/-- Would a GROUP block's writes break the membership rules (R116, R117, R173): the group not IDLE, a channel that another group
names, or a Lead outside the Members written? -/
def groupBlockBreaks (d : Device) (g : Grp) (w : BusWord) : Bool :=
  let m : BitVec 8 := w.extractLsb' 0 8
  (d.group g).state != .idle || (allGroups.any fun h => h != g && (d.group h).members &&& m != 0)
    || (decide (w.toNat / 256 % 16 < 8) && !m.getLsbD (w.toNat / 256 % 16))

/-- The first of R173's conditions that skips a staged block, by its words. -/
def skipReasonOf (d : Device) (ws : List BusWord) : Option SkipReason :=
  let code := (wordAt ws 0).toNat % 256
  let target := (wordAt ws 0).toNat / 256
  let n := (wordAt ws 1).toNat
  if wordSum ws ≠ 0 then some .checksum
  else if code = 0 ∨ 6 < code then some .type
  else if blockLengthFits code n = false then some .length
  else if blockTargetFits code target = false then some .target
  else if code = 1 ∧ 128 < target + n / 8 then some .range
  else if code = 5 ∧ groupBlockBreaks d ⟨target % 4, Nat.mod_lt _ (by decide)⟩ (wordAt ws 2) = true then some .groupRule
  else none

/-- The host write of a word at a window offset. -/
def hostWrite (offset : Nat) (v : BusWord) : Instr := .registerWrite (BitVec.ofNat 12 (offset / 2)) v

/-- The host writes that store the fields of a CHANNEL block (R174, R183, R185). -/
def channelBlockWrites (ws : List BusWord) : List Instr :=
  let bits := fun (j low n : Nat) => BitVec.ofNat 16 ((wordAt ws (2 + j)).toNat / 2 ^ low % 2 ^ n)
  let all := fun (j : Nat) => wordAt ws (2 + j)
  [hostWrite 0x010E (bits 0 0 7), hostWrite 0x0110 (bits 0 8 7), hostWrite 0x0112 (all 1), hostWrite 0x0114 (bits 2 0 8),
    hostWrite 0x0116 (bits 2 8 2), hostWrite 0x011A (bits 2 10 1), hostWrite 0x011C (bits 2 11 1), hostWrite 0x0118 (all 3),
    hostWrite 0x0122 (all 4), hostWrite 0x0124 (bits 5 0 2), hostWrite 0x0126 (bits 5 4 4), hostWrite 0x0128 (bits 5 8 3),
    hostWrite 0x012E (bits 5 11 1), hostWrite 0x012C (bits 5 12 4), hostWrite 0x012A (bits 6 0 8), hostWrite 0x0134 (bits 7 0 3),
    hostWrite 0x0136 (bits 7 3 1), hostWrite 0x0138 (bits 7 4 3), hostWrite 0x014A (bits 7 8 2), hostWrite 0x014C (bits 7 10 2),
    hostWrite 0x014E (bits 7 12 1), hostWrite 0x013A (all 8), hostWrite 0x013C (all 9), hostWrite 0x013E (all 10),
    hostWrite 0x0140 (all 11), hostWrite 0x0142 (all 12), hostWrite 0x0144 (all 13), hostWrite 0x0146 (all 14),
    hostWrite 0x0148 (all 15)]

/-- The host writes that store a ROUTE block: TX Source 0 to 7, then Checker Source 0 to 7 (R174, R182, R185). -/
def routeBlockWrites (ws : List BusWord) : List Instr :=
  (List.range 8).map (fun t => hostWrite (0x0030 + 2 * t) (BitVec.ofNat 16 ((wordAt ws (2 + t)).toNat % 256)))
    ++ (List.range 8).map fun t => hostWrite (0x0040 + 2 * t) (BitVec.ofNat 16 ((wordAt ws (2 + t)).toNat / 256))

/-- What host writes made with a Page Mask and no preload in progress do to the part: "Every value is stored as the host write of
the same register would store it" (R174). The Host Interface and the Preload Controller take no part. -/
def asHostWrites (writes : List Instr) (mask : BitVec 8) (d : Device) : Device :=
  let t := runAll writes
    { pending := []
      dev := { d with host := { d.host with pageMask := mask }, preload := { d.preload with state := .none } } }
  { t.dev with host := d.host, preload := d.preload }

/-- What a verified DWELL, CHANNEL, ROUTE or GROUP block (codes 2 to 5) writes (R174). -/
def registerBlock (code target : Nat) (ws : List BusWord) (d : Device) : Device :=
  match code with
  | 2 => { d with dwell := Eight.build fun j => (wordAt ws (2 + j.val)).setWidth 12 }
  | 3 => asHostWrites (channelBlockWrites ws) (BitVec.ofNat 8 (2 ^ target)) d
  | 4 => asHostWrites (routeBlockWrites ws) d.host.pageMask d
  | _ =>
    let w := wordAt ws 2
    modGroup ⟨target % 4, Nat.mod_lt _ (by decide)⟩
      (fun x =>
        { x with
          members := w.extractLsb' 0 8
          lead := if h : w.toNat / 256 % 16 < 8 then some ⟨w.toNat / 256 % 16, h⟩ else none }) d

/-- The channels of a mask that are OFF. -/
def offAmong (d : Device) (m : BitVec 8) : BitVec 8 :=
  allChans.foldl (fun a c => if m.getLsbD c.val = true ∧ (d.ctl c).state = .off then a ||| BitVec.ofNat 8 (2 ^ c.val) else a) 0

/-- The Preload Controller begins to read its next block: Block Number shows it, and its head is in transfer (R173, R178). -/
def blockBegun (d : Device) : Device :=
  let x := d.preload
  { d with
    preload :=
      { x with
        blockNumber := x.blockNumber + 1, staging := []
        work := .transfer
          { kind := .head, device := 0x50 + x.strapAddress.setWidth 7, address := x.blockAddress, length := 4, retries := 0 } } }

/-- The Preload Controller goes on after a block of `extent` bytes: between blocks, Block Number as it was, or, after the block
numbered by the block count, DONE with the start actions handed, and PRELOAD_DONE at once where there are none (R173, R175, R177). -/
def preloadGoesOn (extent : Nat) (d : Device) : Device :=
  let x := d.preload
  if x.blockNumber < x.blockCount then
    { d with preload := { x with blockAddress := x.blockAddress + extent, staging := [], work := .between } }
  else
    let earlier : StartActions := x.start.getD { enables := 0, starts := 0 }
    let enables := earlier.enables ||| offAmong d (x.enableMask ||| x.startMask)
    let starts := earlier.starts ||| x.startMask
    let done : Preload := { x with state := .done, work := .idle, staging := [] }
    if enables = 0 ∧ starts = 0 then
      { d with preload := { done with start := none }, raised := d.raised ++ [.preloadDone] }
    else { d with preload := { done with start := some { enables := enables, starts := starts } } }

/-- A block held whole in the staging buffer is judged (R173, R174): skipped, written in this happening, or to be written entry by
entry or control word by control word in the grants that follow. -/
def blockJudged (staged : List Byte) (d : Device) : Device :=
  let ws := wordsOf staged
  let code := (wordAt ws 0).toNat % 256
  let target := (wordAt ws 0).toNat / 256
  let n := (wordAt ws 1).toNat
  let x : Preload := { d.preload with staging := staged }
  match skipReasonOf d ws with
  | some r =>
    preloadGoesOn (6 + n)
      { d with preload := { x with skipped := x.skipped + 1, lastSkip := r, lastSkipBlock := x.blockNumber } }
  | none =>
    match code with
    | 1 =>
      { d with
        preload :=
          { x with
            work := .writing ((List.range (n / 8)).map fun j =>
              .entry (idxOf (target + j)) [wordAt ws (2 + 4 * j), wordAt ws (3 + 4 * j), wordAt ws (4 + 4 * j), wordAt ws (5 + 4 * j)]) } }
    | 6 =>
      { d with
        preload :=
          { x with
            work := .writing ((List.range 16).map fun p =>
              .control ⟨target % 8, Nat.mod_lt _ (by decide)⟩ ⟨p % 16, Nat.mod_lt _ (by decide)⟩ (wordAt ws (2 + p))) } }
    | code => preloadGoesOn (6 + n) { registerBlock code target ws d with preload := { x with applied := x.applied + 1 } }

end Sys2Proof.Machine
end

