-- ==== Sys2Proof/WellFormed.lean ====
section
/-! DEFINITION. Which commands are well formed: a row's operands are values that the row is for. `exec` gives an ill-formed
command the effect of the access it spells all the same (a bad-code row whose code names a command is that command's write). -/

namespace Sys2Proof

/-- The low eight bits of a Command or Device Command write (R136, R142). -/
def codeNat (v : BusWord) : Nat := v.toNat % 256

/-- A code that names one of the eleven channel commands (R183). -/
def namesCommand (v : BusWord) : Bool := decide (1 ≤ codeNat v) && decide (codeNat v ≤ 11)

/-- A code that names one of the three device commands (R182). -/
def namesDeviceCommand (v : BusWord) : Bool := decide (1 ≤ codeNat v) && decide (codeNat v ≤ 3)

/-- The offsets whose write has a row of its own (R182, R183): the Device Command with no known code, RefDivider, the device event
set and enables, TX and Checker Sources, Members and Lead, and, in the page, the Overrun Count, the generator and checker
registers with effects of their own, and the event set and enables; and the shared RAM. -/
def hasOwnRow (offset : Nat) : Bool :=
  offset == 0x0012 || offset == 0x001A || offset == 0x001C
    || (decide (0x0030 ≤ offset) && decide (offset < 0x0050))
    || (decide (0x0080 ≤ offset) && decide (offset < 0x00C0) && (offset % 16 == 0 || offset % 16 == 2))
    || offset == 0x0120 || offset == 0x0134
    || (decide (0x0138 ≤ offset) && decide (offset < 0x0150))
    || offset == 0x0152 || offset == 0x0154
    || (decide (0x0400 ≤ offset) && decide (offset < 0x1800))

/-- Well-formed commands. A `registerWrite` of the Command register (0x0100) or of the Device Command (0x0008) is the host's
write of it and is well formed where its code names a command; with another code the row is the bad-code one. A transfer reads
1 to 32 bytes (R169). -/
def Instr.wellFormed (i : Instr) : Bool :=
  match i with
  | .commandBadCode v => !namesCommand v
  | .deviceCommandBadCode v => !namesDeviceCommand v
  | .registerWrite a v =>
    !hasOwnRow (2 * a.toNat) && (2 * a.toNat != 0x0100 || namesCommand v) && (2 * a.toNat != 0x0008 || namesDeviceCommand v)
  | .serialTransferDone data => decide (1 ≤ data.length) && decide (data.length ≤ 32)
  | .powerOn | .resetAssert | .endOfReset _ _ _ | .enable _ | .disable _ | .startSweep _ | .startTrack _ | .single _
  | .apply _ | .stop _ | .abort _ | .clearHalt _ | .clearCounters _ | .resetChannel _ | .snapshot | .preload | .abortPreload
  | .planTableWrite _ _ _ | .ringControlWordWrite _ _ _ | .handback _ | .overrunCountWrite _ | .channelEventSetWrite _
  | .deviceEventSetWrite _ | .eventEnableWrite _ _ | .membersWrite _ _ | .leadWrite _ _ | .txSourceWrite _ _
  | .checkerSourceWrite _ _ | .generatorModeWrite _ | .userWordWrite _ _ | .checkerModeWrite _ _ | .refdividerWrite _
  | .msCounterLowRead | .signalAbsent _ | .signalPresent _ | .receiveWord _ _ | .pointClosure _ | .lockGained _ | .lockLost _
  | .signalLost _ | .tick | .settleTimerExpiry _ | .lockTimerExpiry _ | .intervalTimerExpiry _ | .barrierTimerExpiry _
  | .refLost | .refOk | .channelRefclkLoss _ | .groupRefclkLoss | .checkerRefclkReturn _ | .planCheckRead _ | .planCheckEnd _
  | .walkFetch _ | .selectedRefetch _ | .singleReturnFetch _ | .fill _ | .listRead _ | .candidateFetch _
  | .reapplicationFetch _ | .trackCloseFetch _ | .groupCheckRead _ | .groupCheckEnd _ | .groupWalkFetch _
  | .groupSelectedRefetch _ | .memberTakesCopy _ | .memberReport _ | .memberTakesAbort _ | .memberTakesEnding _
  | .memberTakesHalt _ | .memberHaltReport _ | .preloadRamWrite | .nack | .retryWaitExpiry | .transferTimeout
  | .preloadHandedEnable _ | .preloadHandedStartSweep _ | .wordTime | .ringBodyWordWrite _ _ _ _ => true

end Sys2Proof
end

