-- ==== Sys2Proof/Certificates/Slice0/Obligations.lean ====
section
/-! DEFINITION. The statements for the provers, one definition each. They are about the part, not about a program. Most say of a
row and of every state that meets the row's own conditions what the next state is, in full: what is not named in an update is
as it was. -/

open Sys2Proof Sys2Proof.Machine

/-! ### The machine -/

/-- A step takes the command at the front of the queue and runs it on the state with the queue's rest. On an empty queue the Event
Unit takes the oldest of the raises that wait for one event set, or the Preload Controller, where it stands between blocks, begins
to read the next one; with neither, nothing changes: the model's choice (assumption logs 11, 33, 43). -/
def Obligations.StepRunsFrontCommand : Prop :=
  (∀ (i : Instr) (rest : List Instr) (s : State), s.pending = i :: rest → step s = exec i { s with pending := rest })
    ∧ ∀ s : State, s.pending = [] →
        let d : Device := { s.dev with free := s.dev.free + 1 }
        (noRaiseWaits s.dev → s.dev.preload.work ≠ .between → step s = .next s)
          ∧ (¬ noRaiseWaits s.dev ∨ s.dev.preload.work = .between →
              (∃ (c : Chan) (e : ChanEvent) (later : List ChanEvent), (s.dev.chan c).raised = e :: later
                  ∧ step s = .next { s with dev := (
                      modChan c (fun k => { k with events := withRaises [e] k.events, raised := later }) d) })
                ∨ (∃ (e : DevEvent) (later : List DevEvent), s.dev.raised = e :: later
                    ∧ step s = .next { s with dev :=
                        { d with events := withDeviceRaises [e] s.dev.events, raised := later } })
                ∨ (s.dev.preload.work = .between ∧ step s = .next { s with dev := blockBegun d }))

/-- Every command answers a next state in every state, and leaves the queue alone. -/
def Obligations.EveryCommandAnswersNext : Prop :=
  ∀ (i : Instr) (s : State), ∃ t, exec i s = .next t ∧ t.pending = s.pending

/-- While the part is held in reset a host access waits and changes nothing else, and nothing happens inside the part (R166,
R179). Which rows a held part is still reached by is the model's choice (assumption logs 15, 17). -/
def Obligations.HeldPartOnlyWaits : Prop :=
  ∀ (i : Instr) (s : State), s.dev.held = true → reachesHeld i = false →
    match hostAccessOf i with
    | some a => exec i s = .next { s with dev := { s.dev with host := { s.dev.host with waiting := s.dev.host.waiting ++ [a] } } }
    | none => exec i s = .next s

/-- Every step keeps the model's own representation of the shared RAM canonical: the bytes written since power-on, listed once each
in rising order. The form is assumption log 1's; the manual says nothing of it. -/
def Obligations.RamCanonicalKept : Prop :=
  ∀ s t : State, Memory.wf s.dev.ram = true → step s = .next t → Memory.wf t.dev.ram = true

/-- A well-formed row that acts at a channel changes no byte of the shared RAM outside that channel's ring, and a well-formed row
that is no RAM writer changes no byte at all (R1, R75, R79). -/
def Obligations.RamWritesStayInRing : Prop :=
  ∀ (i : Instr) (s t : State), i.wellFormed = true → exec i s = .next t → otherRamRow i = false →
    match ringChannel i with
    | some c => ∀ a, ¬ inRing c a → ramByte t.dev a = ramByte s.dev a
    | none => ∀ a, ramByte t.dev a = ramByte s.dev a

/-- Every step keeps what holds of a channel in each state, the checker OFF where R28 has it OFF, every channel OFF or IDLE while a
preload is in progress, and the Preload Controller at work only then (R9, R28, R43, R44, R46, R145, R168); and an ending that stands
between its two fills does so in SWEEP, with a host write of its ring the command to be taken next: the model's own field (R86,
R180; assumption log 18). -/
def Obligations.StatesRuleKept : Prop :=
  ∀ s t : State, statesRule s.dev → step s = .next t → statesRule t.dev ∧ (endingRule s → endingRule t)

/-- Every step keeps the membership rules of the groups (R115, R116, R117). -/
def Obligations.GroupsRuleKept : Prop :=
  ∀ s t : State, groupsRule s.dev → step s = .next t → groupsRule t.dev

/-- Every step keeps every front end within the legal ranges (R2, R5). -/
def Obligations.FrontsInRangeKept : Prop :=
  ∀ s t : State, frontsInRange s.dev → step s = .next t → frontsInRange t.dev

/-- Every step keeps the inequalities of the monitor counters and of their copies (R40, R41), and RefDivider within 10 to 200
(R159). -/
def Obligations.MonitorsAndRefDividerKept : Prop :=
  ∀ s t : State, step s = .next t →
    (monitorsRule s.dev → monitorsRule t.dev) ∧ (refDividerRule s.dev → refDividerRule t.dev)

/-- The rules the steps keep hold right after reset. -/
def Obligations.ResetMeetsTheRules : Prop :=
  Memory.wf State.reset.dev.ram = true ∧ statesRule State.reset.dev ∧ endingRule State.reset ∧ groupsRule State.reset.dev
    ∧ frontsInRange State.reset.dev ∧ monitorsRule State.reset.dev ∧ refDividerRule State.reset.dev

/-! ### Resets -/

/-- Power-on and RESET# hold the part in reset: every channel at its defaults, the RAM unknown after power-on and kept by
RESET#, the monitor's gap count at 0, and the accesses that wait kept by RESET# (R163, R166, R179). That power-on lets waiting
accesses go, and the values of a part still held, are the model's choice (assumption log 12), and so are that a reset leaves the
line activity (17), and the values of log 3 among a channel's defaults. -/
def Obligations.ResetsHoldThePart : Prop :=
  ∀ s : State, ∃ p r : State,
    exec .powerOn s = .next p ∧ exec .resetAssert s = .next r
      ∧ p.pending = s.pending ∧ r.pending = s.pending
      ∧ p.dev.held = true ∧ r.dev.held = true
      ∧ p.dev.ram = [] ∧ p.dev.epoch = s.dev.epoch + 1 ∧ r.dev.ram = s.dev.ram ∧ r.dev.epoch = s.dev.epoch
      ∧ p.dev.host.waiting = [] ∧ r.dev.host.waiting = s.dev.host.waiting
      ∧ p.dev.lanes.activity = s.dev.lanes.activity ∧ r.dev.lanes.activity = s.dev.lanes.activity
      ∧ (∀ c, p.dev.chan c = Channel.default ∧ r.dev.chan c = Channel.default)
      ∧ (∀ g, p.dev.group g = Group.default ∧ r.dev.group g = Group.default)
      ∧ (∀ k, p.dev.dwell.get k = 0 ∧ r.dev.dwell.get k = 0)
      ∧ p.dev.events = 0 ∧ p.dev.enables = 0 ∧ r.dev.events = 0 ∧ r.dev.enables = 0
      ∧ p.dev.raised = [] ∧ r.dev.raised = []
      ∧ p.dev.time.gap = 0 ∧ r.dev.time.gap = 0

/-- The end of a reset leaves every register at its reset value, the RAM as it stood, the straps as sampled, and a strap
preload begun where PRELOAD# was low, at device address 0x50 + MA (R163, R166, R167); accesses that waited are then served against
those values, one after another (R179). The model's choice: the values of a channel's defaults that the manual gives none for, its
generator's sequence, its checker's memory and what waits to be taken (assumption log 3); that several accesses wait, and in which
order (log 15); and that a part that is not held has no reset to end (log 16). -/
def Obligations.EndOfResetLeavesResetValues : Prop :=
  ∀ (p : Bool) (ma : BitVec 2) (r : Bool) (s : State),
    (s.dev.held = false → exec (.endOfReset p ma r) s = .next s)
      ∧ (s.dev.held = true → s.dev.host.waiting = [] →
          ∃ t : State, exec (.endOfReset p ma r) s = .next t ∧ t.pending = s.pending ∧ t.dev.held = false
            ∧ t.dev.ram = s.dev.ram ∧ t.dev.epoch = s.dev.epoch ∧ t.dev.lanes.activity = s.dev.lanes.activity
            ∧ (∀ o, busRead t.dev o =
                if 0x0400 ≤ o ∧ o < 0x1800 then ramWord s.dev o else BitVec.ofNat 16 (resetRead p ma r o))
            ∧ (∀ c, t.dev.chan c = Channel.default) ∧ (∀ g, t.dev.group g = Group.default) ∧ t.dev.raised = []
            ∧ t.dev.time.prescaler = 0 ∧ t.dev.time.subMs = 0 ∧ t.dev.time.present = r
            ∧ t.dev.arbiter = { lastServed := 9, lastGroup := 3, paceRequest := none, turns := Eight.build fun _ => 0 }
            ∧ t.dev.preload.work =
                (if p then
                  .transfer { kind := .header, device := 0x50 + ma.setWidth 7, address := 0, length := 16, retries := 0 }
                else .idle))
      ∧ (s.dev.held = true → ∀ (w : List Access) (a : BitVec 12) (v : BusWord) (u : State),
          exec (.endOfReset p ma r) { s with dev := { s.dev with host := { s.dev.host with waiting := w } } } = .next u →
            u.dev.held = false
              ∧ exec (.endOfReset p ma r)
                  { s with dev := { s.dev with host := { s.dev.host with waiting := w ++ [.write (2 * a.toNat) v] } } }
                = exec (.registerWrite a v) u)

/-! ### Channel commands -/

/-- A command that meets one of its rule's conditions is refused with that condition's status: Last Command, Last Status and
CMD_REFUSED, and nothing else (R47, R63, R64, R66, R67, R71, R74, R94, R118, R119, R137, R138). The failing directed fetch of
APPLY and SINGLE has a statement of its own. STOP and ABORT are judged after a group abort, ending or halt that waits: the
model's choice (assumption log 20). -/
def Obligations.RefusedCommandChangesStatusOnly : Prop :=
  ∀ (k : Command) (c : Chan) (s : State) (st : LastStatus),
    s.dev.held = false → groupsRule s.dev → (k = .stop ∨ k = .abort → (s.dev.ctl c).message = none) →
    refusalOf s.dev c k = some st →
      exec (channelRow k c) s = .next { s with dev := modChan c (withRefusal (commandCode k) st) s.dev }

/-- A code that names no command is refused with BAD_CODE at every selected channel, in every state (R136, R137); a known code
written to the Command register is that command at every selected channel, lowest first (R133, R136, R141: the order is the
model's choice, assumption log 13, and so is the meaning of the bad-code row where its code names a command, log 14). -/
def Obligations.CommandWriteReachesSelectedChannels : Prop :=
  ∀ (v : BusWord) (s : State), s.dev.held = false → s.dev.host.pageMask ≠ 0 →
    (namesCommand v = false →
      exec (.commandBadCode v) s = .next { s with dev := forMask s.dev.host.pageMask (fun c => modChan c (withRefusal (v.setWidth 8) .badCode)) s.dev }
        ∧ exec (.registerWrite 0x080 v) s = exec (.commandBadCode v) s)
      ∧ ∀ k : Command, codeNat v = (commandCode k).toNat →
          exec (.registerWrite 0x080 v) s
            = .next (runAll ((allChans.filter (inMask s.dev.host.pageMask)).map (channelRow k)) s)

/-- ENABLE of a channel that is OFF, with REFCLK present and no preload: IDLE at the rest settings, the generator's sequence
started, the checker out of OFF by the report then standing; the checkers that watch the channel's lane hear its signal return
(R20, R26, R28, R29, R71). -/
def Obligations.EnablePowersTheChannel : Prop :=
  ∀ (c : Chan) (s : State), s.dev.held = false → (s.dev.ctl c).state = .off → (s.dev.chan c).chk.state = .off →
    preloadActive s.dev = false → s.dev.time.present = true →
    ∃ t : State, exec (.enable c) s = .next t ∧ t.pending = s.pending
      ∧ { t.dev with chans := s.dev.chans } = s.dev
      ∧ (let k := s.dev.chan c
         let src := s.dev.lanes.checkerSource.get c
         let heard := s.dev.lanes.activity.get src && (src == c || (s.dev.ctl src).state != .off)
         t.dev.chan c =
          { k with
            front := restSettings, gen := genRestart k.gen
            chk :=
              if k.chk.mode = .off then k.chk else if heard then chkFresh k.chk else { k.chk with state := .nosignal }
            ctl := { k.ctl with state := .idle, current := none, lastCommand := 0x01, lastStatus := .accepted } })
      ∧ ∀ b, b ≠ c → t.dev.chan b =
          if s.dev.lanes.checkerSource.get b = c ∧ s.dev.lanes.activity.get c = true then hearReport true (s.dev.chan b)
          else s.dev.chan b

/-- DISABLE is taken in every state: the channel ends OFF, with no phase, at the rest settings, its checker OFF, and keeps its
configuration, its generator, its sequence number, its monitor counters and its snapshot, and no byte outside its ring changes. In
OFF it changes Last Command and Last Status alone. A channel that takes part in no running group first ends its work: a check is
ABANDONED; a sweep, SINGLE or track makes the ending records of an ABORT, with SWEEP_END for a sweep. The lead of a running group
first abandons the group's check, or aborts the group with its own ABORTED records, GROUP_END and SWEEP_END, the abort handed to the
other members; another member is ejected. Then its lane sends nothing, a LOCKED checker hands lock lost, and the checkers that watch
the lane hear signal absent (R13, R20, R28, R29, R39, R62, R72, R86, R108, R118, R120, R126, R127). The time and figures of a
summary that replaces a pending one, that a member that has halted leaves without a record of its own, that what the checker handed
before is let go, and that a REFCLK return handed to it is withdrawn, are the model's choice (assumption logs 26, 23, 41). -/
def Obligations.DisablePowersDown : Prop :=
  (∀ (c : Chan) (s : State), s.dev.held = false → chanRule (s.dev.chan c) →
    ((s.dev.ctl c).state = .off →
      exec (.disable c) s
        = .next { s with dev := modCtl c (fun k => { k with lastCommand := 0x02, lastStatus := .accepted }) s.dev })
      ∧ ((s.dev.ctl c).state = .idle ∨ (s.dev.ctl c).state = .halted ∨ (s.dev.ctl c).state = .applied →
          runningGroup s.dev c = none → s.dev.time.present = true →
          ∃ t : State, exec (.disable c) s = .next t ∧ t.pending = s.pending
            ∧ { t.dev with chans := s.dev.chans, lanes := s.dev.lanes } = s.dev
            ∧ t.dev.lanes = { s.dev.lanes with tx := s.dev.lanes.tx.set c none }
            ∧ (let k := s.dev.chan c
               t.dev.chan c =
                { k with
                  front := restSettings, chk := chkEnterOff k.chk
                  ctl :=
                    { dropWork .off k.ctl with
                      inbox := if k.chk.state = .locked then [.lockLost] else []
                      lastCommand := 0x02, lastStatus := .accepted } })
            ∧ ∀ b, b ≠ c → t.dev.chan b =
                if s.dev.lanes.checkerSource.get b = c ∧ s.dev.lanes.activity.get c = true then
                  hearReport false (s.dev.chan b)
                else s.dev.chan b))
    ∧ (∀ (c : Chan) (s : State), s.dev.held = false → noEndHanded (s.dev.ctl c) → (s.dev.ctl c).state ≠ .off →
        let told := modCtl c (fun k => { k with lastCommand := 0x02, lastStatus := .accepted }) s.dev
        (runningGroup s.dev c = none → exec (.disable c) s = .next { s with dev := poweredDown c (endedForOff c told) })
          ∧ ∀ g, runningGroup s.dev c = some g →
              exec (.disable c) s = .next { s with dev := poweredDown c (leftForOff g c told) })
    ∧ ∀ (c : Chan) (s : State), s.dev.held = false →
    ∃ t : State, exec (.disable c) s = .next t ∧ t.pending = s.pending
      ∧ (t.dev.ctl c).state = .off
      ∧ ((s.dev.ctl c).state ≠ .off →
          (t.dev.ctl c).task.phase = .none ∧ (t.dev.ctl c).origin = .none ∧ (t.dev.ctl c).stopping = false
            ∧ (t.dev.ctl c).current = none ∧ (t.dev.ctl c).window = none ∧ (t.dev.ctl c).force = none
            ∧ (t.dev.ctl c).anchor = none ∧ (t.dev.chan c).front = restSettings ∧ (t.dev.chan c).chk.state = .off
            ∧ (t.dev.chan c).chk.point.target = none)
      ∧ (t.dev.ctl c).lastCommand = 0x02 ∧ (t.dev.ctl c).lastStatus = .accepted
      ∧ (t.dev.chan c).config = (s.dev.chan c).config ∧ (t.dev.chan c).gen = (s.dev.chan c).gen
      ∧ (t.dev.chan c).chk.monitor = (s.dev.chan c).chk.monitor ∧ (t.dev.chan c).snap = (s.dev.chan c).snap
      ∧ (t.dev.chan c).enables = (s.dev.chan c).enables ∧ (t.dev.ctl c).seq = (s.dev.ctl c).seq
      ∧ ∀ a, ¬ inRing c a → ramByte t.dev a = ramByte s.dev a

/-- RESET_CHANNEL is taken in every state: the channel's dynamic state, events, enables and snapshot take their reset values, its
configuration and generator are kept, it is in no group and leads none, and no byte outside its ring changes (R73, R131, R157). A
channel first ends its work and enters OFF as DISABLE has it do: in no running group its own work, and in one the group's check
abandoned or the group aborted by its lead, with its records and GROUP_END, or another member ejected (R13, R39, R62, R72, R73, R86,
R108, R120, R126, R127). The model's choice: the reset values that the manual gives none for, of the checker's search memory and
what waits to be taken (assumption log 3); that a member that has halted leaves without a record of its own (log 23); that a REFCLK
loss handed stays handed, and that handbacks and what the checker handed before are let go (log 27); which of the raises that wait
are taken before the reset (log 33); and the summary that replaces a pending one (log 26). -/
def Obligations.ResetChannelResetsTheChannel : Prop :=
  (∀ (c : Chan) (s : State), s.dev.held = false →
    ∃ (t : State) (n : Nat), exec (.resetChannel c) s = .next t ∧ t.pending = s.pending
      ∧ t.dev.chan c = resetAt ((raisedByOthers (s.dev.chan c)).drop n) (s.dev.chan c)
      ∧ (∀ g, inMask (t.dev.group g).members c = false ∧ ((t.dev.group g).lead = some c → (s.dev.group g).lead = some c
            ∧ inMask (s.dev.group g).members c = false))
      ∧ ∀ a, ¬ inRing c a → ramByte t.dev a = ramByte s.dev a)
    ∧ ∀ (c : Chan) (s : State), s.dev.held = false → noEndHanded (s.dev.ctl c) →
        let reset := fun (n : Nat) (d : Device) =>
          modChan c (fun _ => resetAt ((raisedByOthers (s.dev.chan c)).drop n) (s.dev.chan c))
            { d with groups := Four.build fun g => leftBy c (d.group g), free := s.dev.free + 1 }
        (runningGroup s.dev c = none →
            ∃ n : Nat, exec (.resetChannel c) s = .next { s with dev := reset n (
              if (s.dev.ctl c).state = .off then s.dev else poweredDown c (endedForOff c s.dev)) })
          ∧ ∀ g, runningGroup s.dev c = some g → (s.dev.ctl c).state ≠ .off →
              ∃ n : Nat, exec (.resetChannel c) s = .next { s with dev := reset n (poweredDown c (leftForOff g c s.dev)) }

/-- START_SWEEP of a solo channel that meets none of its conditions: SWEEP, CHECK, with the window and the configuration
copied and the prior state saved (R9, R47). That a window with WinFirst above WinLast stands judged ORDER at once, before the check's
end is taken, is assumption log 30. -/
def Obligations.StartSweepEntersCheck : Prop :=
  ∀ (c : Chan) (s : State), s.dev.held = false → groupsRule s.dev → refusalOf s.dev c .startSweep = none →
    isMember s.dev c = false →
    exec (.startSweep c) s = .next { s with dev := modCtl c (fun k =>
      { k with
        lastCommand := 0x03, lastStatus := .checking, state := .sweep, origin := .sweep, stopping := false, current := none
        window := some { first := (s.dev.chan c).config.winFirst, last := (s.dev.chan c).config.winLast }
        force := some (s.dev.chan c).config.sweep
        prior := some { applied := if k.state = .applied then k.current else none, window := k.window }
        planCheck := { result := .running, index := (s.dev.chan c).config.winFirst, fetch := false }
        task :=
          if (s.dev.chan c).config.winLast < (s.dev.chan c).config.winFirst then
            .check (.judged .order (s.dev.chan c).config.winFirst)
          else .check (.reading (s.dev.chan c).config.winFirst none) }) s.dev }

/-- START_SWEEP of the lead of a ready group: the group runs on the lead's configuration and window, and every member enters
SWEEP, CHECK, with them as its own (R119). That a window with WinFirst above WinLast stands judged ORDER at once, before the check's
end is taken, is assumption log 30. -/
def Obligations.LeadStartsItsGroup : Prop :=
  ∀ (c : Chan) (g : Grp) (s : State), s.dev.held = false → groupsRule s.dev → refusalOf s.dev c .startSweep = none →
    inMask (s.dev.group g).members c = true →
    ∃ t : State, exec (.startSweep c) s = .next t ∧ t.pending = s.pending
      ∧ { t.dev with chans := s.dev.chans, groups := s.dev.groups, arbiter := s.dev.arbiter } = s.dev
      ∧ { t.dev.arbiter with paceRequest := none } = { s.dev.arbiter with paceRequest := none }
      ∧ (let x := (s.dev.chan c).config.sweep
         let w : Window := { first := (s.dev.chan c).config.winFirst, last := (s.dev.chan c).config.winLast }
         t.dev.group g =
            { s.dev.group g with
              state := .running, current := none, atBarrier := 0, selection := Selection.cleared, task := .check (checkStart w),
              begun := false, halting := false, force := some x, window := some w,
              reports := Eight.build fun _ => none, barrier := none }
          ∧ (∀ h, h ≠ g → t.dev.group h = s.dev.group h)
          ∧ ∀ b, t.dev.chan b =
              if inMask (s.dev.group g).members b then
                { s.dev.chan b with
                  ctl :=
                    { s.dev.ctl b with
                      state := .sweep, task := .memberCheck, origin := .sweep, stopping := false, current := none,
                      window := some w, force := some x, prior := none, timer := none, group := some g, message := none,
                      report := none, haltReport := false
                      lastCommand := if b = c then 0x03 else (s.dev.ctl b).lastCommand
                      lastStatus := if b = c then .checking else (s.dev.ctl b).lastStatus
                      planCheck :=
                        if b = c then { result := .running, index := w.first, fetch := false }
                        else (s.dev.ctl b).planCheck } }
              else s.dev.chan b)

/-- START_TRACK that meets none of its conditions: TRACK, WAIT, the anchor at the current index and the interval timer started
(R94, R97). -/
def Obligations.StartTrackEntersWait : Prop :=
  ∀ (c : Chan) (s : State), s.dev.held = false → groupsRule s.dev → refusalOf s.dev c .startTrack = none →
    exec (.startTrack c) s = .next { s with dev := modCtl c (fun k =>
      { k with
        lastCommand := 0x04, lastStatus := .accepted, state := .track, origin := .track, stopping := false,
        anchor := k.current, failCount := 0, prior := none, group := none, message := none, report := none, task := .wait,
        force := some (s.dev.chan c).config.sweep, cycle := { list := [], position := 0, kept := [] }
        timer := some { kind := .interval, left := 1000 * (s.dev.chan c).config.sweep.track.interval.toNat } }) s.dev }

/-- APPLY that meets none of its conditions reads its entry in one grant: a fetch that passes applies it, and one that fails
refuses the command with BAD_ARG and shows the failure (R9, R16 to R18, R66). That the entry is read within the command, and the
channel's turn in the rotation comes behind those that wait ahead of it, is the model's choice (assumption log 18). -/
def Obligations.ApplyFetchesAndApplies : Prop :=
  ∀ (c : Chan) (s : State) (i : Idx), s.dev.held = false → groupsRule s.dev → refusalOf s.dev c .apply = none →
    (s.dev.ctl c).command.toNat = i.val →
    match directedFetch s.dev i none with
    | .ok p =>
      exec (.apply c) s = .next { s with dev := modChan c (fun k =>
        { k with
          front := p.settings
          ctl :=
            { k.ctl with
              lastCommand := 0x06, lastStatus := .accepted, state := .applied, current := some i
              window := some { first := k.config.winFirst, last := k.config.winLast } } }) (takeTurn c s.dev) }
    | .error r =>
      exec (.apply c) s = .next { s with dev := modChan c (fun k =>
        withRefusal 0x06 .badArg
          { k with ctl := { k.ctl with planCheck := { result := r, index := i, fetch := true } } }) (takeTurn c s.dev) }

/-- SINGLE that meets none of its conditions: a fetch that fails refuses it with BAD_ARG; one that passes applies the entry
and begins the point in SETTLE, or, with a Settle Time of 0, in LOCKWAIT or DWELL (R9, R16 to R18, R50, R51, R67). That the
entry is read within the command, and the channel's turn in the rotation comes behind those that wait ahead of it, is the model's
choice (assumption log 18). -/
def Obligations.SingleBeginsItsPoint : Prop :=
  ∀ (c : Chan) (s : State) (i : Idx), s.dev.held = false → groupsRule s.dev → refusalOf s.dev c .single = none →
    (s.dev.ctl c).command.toNat = i.val →
    match directedFetch s.dev i none with
    | .ok p =>
      let d1 := modChan c (fun k =>
        { k with
          front := p.settings
          ctl :=
            { k.ctl with
              lastCommand := 0x05, lastStatus := .accepted, state := .sweep, origin := .single, stopping := false,
              current := some i, force := some k.config.sweep, window := some (singleJudges s.dev c)
              prior := some { applied := if k.ctl.state = .applied then k.ctl.current else none, window := k.ctl.window }
              task := .settle p
              timer := some { kind := .settle, left := k.config.sweep.settleTime.toNat } } }) (takeTurn c s.dev)
      exec (.single c) s
        = .next { s with dev := if (s.dev.chan c).config.sweep.settleTime = 0 then enterLockwait c p d1 else d1 }
    | .error r =>
      exec (.single c) s = .next { s with dev := modChan c (fun k =>
        withRefusal 0x05 .badArg
          { k with ctl := { k.ctl with planCheck := { result := r, index := i, fetch := true } } }) (takeTurn c s.dev) }

/-- STOP of a solo channel: a check is abandoned; a sweep whose check has passed and whose walk has read no entry ends with no point
measured; a sweep and a track's candidate run on with Stopping set; a SINGLE and an ending are left as they are, and a waiting or
resettling track enters APPLIED (R13, R49, R63, R68, R105). Which rule a STOP meets at the walk, R13 before its first read and R49
after it, is assumption log 42; that a STOP at the fetch that closes a track changes nothing more is log 28; and a STOP
while a MOVE record waits in RECORD for its first fill, for which R105 has no row, is log 44. -/
def Obligations.StopBySoloPhase : Prop :=
  ∀ (c : Chan) (s : State), s.dev.held = false → (s.dev.ctl c).message = none → runningGroup s.dev c = none →
    let d := modCtl c (fun k => { k with lastCommand := 0x07, lastStatus := .accepted }) s.dev
    let unread := (s.dev.ctl c).origin ≠ .single ∧ (s.dev.ctl c).current = none
      ∧ ∃ w, (s.dev.ctl c).window = some w ∧ (s.dev.ctl c).task = .walk w.first
    ((s.dev.ctl c).state = .sweep → (∃ p, (s.dev.ctl c).task = .check p) →
        exec (.stop c) s = .next { s with dev := (
          toRest c .idle (modCtl c (fun k =>
            { k with planCheck := { k.planCheck with result := .abandoned, fetch := false } }) d)) })
      ∧ ((s.dev.ctl c).state = .sweep → unread →
          exec (.stop c) s = .next { s with dev := sweepCloses c (modCtl c (fun k => { k with stopping := true }) d) })
      ∧ ((s.dev.ctl c).state = .sweep → (s.dev.ctl c).task.inCheck = false → ¬ unread →
          exec (.stop c) s = .next { s with dev := (
            if (s.dev.ctl c).origin = .single ∨ (s.dev.ctl c).task.inEnding = true then d
            else modCtl c (fun k => { k with stopping := true }) d) })
      ∧ ((s.dev.ctl c).state = .track →
          exec (.stop c) s = .next { s with dev := (
            match (s.dev.ctl c).task with
            | .wait => enterApplied c d
            | .listing _ _ => enterApplied c d
            | .resettle => enterApplied c d
            | .closeFetch => d
            | _ => modCtl c (fun k => { k with stopping := true }) d) })

/-- ABORT of a solo sweep in its check: ABANDONED, and IDLE at rest with no record and no SWEEP_END (R13, R64). ABORT of one past its
check: the pending point record and the ABORTED summary as ending writes, then IDLE at rest and SWEEP_END (R62, R64, R86). The
summary counts the point it ends. Its time where the selected re-fetch waits, and the time and figures where it replaces a SELECTED
or NONE_USABLE summary that waits, are the model's choice (assumption log 26). -/
def Obligations.AbortEndsTheSweep : Prop :=
  (∀ (c : Chan) (s : State), s.dev.held = false → (s.dev.ctl c).message = none → runningGroup s.dev c = none →
    (s.dev.ctl c).state = .sweep → (s.dev.ctl c).task.inCheck = true →
    exec (.abort c) s = .next { s with dev := modChan c (fun k =>
      restedIn .idle
        { k with
          ctl :=
            { k.ctl with
              lastCommand := 0x08, lastStatus := .accepted
              planCheck := { k.ctl.planCheck with result := .abandoned, fetch := false } } }) s.dev })
  ∧ ∀ (c : Chan) (s : State), s.dev.held = false → (s.dev.ctl c).message = none → runningGroup s.dev c = none →
    (s.dev.ctl c).state = .sweep → (s.dev.ctl c).origin = .sweep → (s.dev.ctl c).group = none →
    (s.dev.ctl c).task.inCheck = false →
    let d := modCtl c (fun k => { k with lastCommand := 0x08, lastStatus := .accepted }) s.dev
    let k := s.dev.chan c
    let ended := fun (sel : Selection) => Record.summary
      { group := false, outcome := .aborted, policy := (forceOf k.ctl).policy, selected := 0, measured := sel.measured,
        usable := sel.usable, runFirst := sel.longestFirst, runLength := sel.longestLength, seq := k.ctl.seq, cause := .none,
        stamp := s.dev.time.ms.setWidth 16 }
    let finish := fun (d : Device) => raise c .sweepEnd (toRest c .idle d)
    exec (.abort c) s = .next { s with dev := (
      match k.ctl.task.underWay, k.ctl.task.pendingRecord with
      | some (p, counted), _ =>
        let sel := foldPoint p.index false false 0 0 k.ctl.selection
        finish (endingWrite c (ended sel)
          (endingWrite c (.point (pointRecordFor k p counted .aborted s.dev.time.ms)) (modCtl c (fun k => { k with selection := sel }) d)))
      | none, some (.summary y) =>
        finish (endingWrite c
          (.summary { y with outcome := .aborted, selected := 0, cause := .none, stamp := s.dev.time.ms.setWidth 16 }) d)
      | none, some r => finish (endingWrite c (ended k.ctl.selection) (endingWrite c r d))
      | none, none => finish (endingWrite c (ended k.ctl.selection) d)) }

/-- ABORT of a SINGLE makes its record, if there is one, as an ending write and returns to the saved state: IDLE at rest, or
the fetch of the saved index; a return fetch that waits goes on (R68, R86). ABORT of a track enters APPLIED at once where the front
ends hold the current entry, after a MOVE record that waits, as an ending write; and else turns to the fetch of the current index,
with a candidate's record, if there is one, as an ending write (R99, R106). That an ABORT at that fetch changes nothing more is the
model's choice (assumption log 28), and so is an ABORT while a MOVE record waits in RECORD for its first fill (44). -/
def Obligations.AbortOfSingleReturns : Prop :=
  (∀ (c : Chan) (s : State), s.dev.held = false → (s.dev.ctl c).message = none → (s.dev.ctl c).state = .track →
    let k := s.dev.chan c
    let d := modCtl c (fun k => { k with lastCommand := 0x08, lastStatus := .accepted }) s.dev
    let closing := fun (e : Device) =>
      modChan c (fun x =>
        { x with
          ctl := { x.ctl with task := .closeFetch, timer := none }
          chk := { x.chk with point := { x.chk.point with target := none } } }) e
    exec (.abort c) s = .next { s with dev := (
      match k.ctl.task with
      | .wait => modChan c nowApplied d
      | .listing _ _ => modChan c nowApplied d
      | .resettle => modChan c nowApplied d
      | .candidateFetch => if k.ctl.cycle.position = 0 then modChan c nowApplied d else closing d
      | .record r .move => modChan c nowApplied (endingWrite c r d)
      | .stall r .move => modChan c nowApplied (endingWrite c r d)
      | .closeFetch => d
      | _ => closing (writeAll c (endingPointOf k .aborted s.dev.time.ms) d)) })
  ∧ ∀ (c : Chan) (s : State), s.dev.held = false → (s.dev.ctl c).message = none → runningGroup s.dev c = none →
    (s.dev.ctl c).state = .sweep → (s.dev.ctl c).origin = .single → (s.dev.ctl c).task.inCheck = false →
    let d := modCtl c (fun k => { k with lastCommand := 0x08, lastStatus := .accepted }) s.dev
    let back := fun (d : Device) =>
      match (s.dev.ctl c).prior.bind (fun q => q.applied) with
      | none => toRest c .idle d
      | some i =>
        modChan c (fun k => { k with ctl := { k.ctl with task := .singleReturn i, timer := none }, chk := chkClose k.chk }) d
    exec (.abort c) s = .next { s with dev := (
      match (s.dev.ctl c).task with
      | .singleReturn _ => d
      | .settle p => back (endingWrite c (.point (pointRecordFor (s.dev.chan c) p false .aborted s.dev.time.ms)) d)
      | .lockwait p => back (endingWrite c (.point (pointRecordFor (s.dev.chan c) p false .aborted s.dev.time.ms)) d)
      | .dwell p => back (endingWrite c (.point (pointRecordFor (s.dev.chan c) p true .aborted s.dev.time.ms)) d)
      | .record (.point r) _ => back (endingWrite c (.point r) d)
      | .stall (.point r) _ => back (endingWrite c (.point r) d)
      | .record (.move r) _ => back (endingWrite c (.move r) d)
      | .stall (.move r) _ => back (endingWrite c (.move r) d)
      | _ => back d) }

/-- "CLEAR_HALT is taken in HALTED and refused with BAD_STATE in every other state" (R74), and a cleared channel's next
START_SWEEP, SINGLE or APPLY is refused with NO_REFCLK while REFCLK is absent and no preload is in progress. -/
def Obligations.ClearHaltBringsIdle : Prop :=
  ∀ (c : Chan) (s : State), s.dev.held = false →
    ((s.dev.ctl c).state = .halted →
      exec (.clearHalt c) s = .next { s with dev := modChan c (fun k =>
        { k with
          front := restSettings
          ctl := { k.ctl with state := .idle, current := none, lastCommand := 0x09, lastStatus := .accepted } }) s.dev })
      ∧ ((s.dev.ctl c).state ≠ .halted →
          exec (.clearHalt c) s = .next { s with dev := modChan c (withRefusal 0x09 .badState) s.dev })
      ∧ ((s.dev.ctl c).state = .halted → s.dev.time.present = false → preloadActive s.dev = false →
          runningGroup s.dev c = none → ∀ t : State, exec (.clearHalt c) s = .next t →
          exec (.startSweep c) t = .next { t with dev := modChan c (withRefusal 0x03 .noRefclk) t.dev }
            ∧ exec (.single c) t = .next { t with dev := modChan c (withRefusal 0x05 .noRefclk) t.dev }
            ∧ exec (.apply c) t = .next { t with dev := modChan c (withRefusal 0x06 .noRefclk) t.dev })

/-- "CLEAR_COUNTERS is refused with BAD_STATE by a channel in OFF. In every other state it is taken" and sets the monitor
counters to 0, whatever REFCLK, a preload or a running group (R41, R138). -/
def Obligations.ClearCountersZeroesTheMonitor : Prop :=
  ∀ (c : Chan) (s : State), s.dev.held = false →
    ((s.dev.ctl c).state = .off →
      exec (.clearCounters c) s = .next { s with dev := modChan c (withRefusal 0x0A .badState) s.dev })
      ∧ ((s.dev.ctl c).state ≠ .off →
          exec (.clearCounters c) s = .next { s with dev := modChan c (fun k =>
            { k with
              chk := { k.chk with monitor := { words := 0, bits := 0, errored := 0 } }
              ctl := { k.ctl with lastCommand := 0x0A, lastStatus := .accepted } }) s.dev })

/-! ### Host writes -/

/-- A row that is a host write of an offset is the register write of that offset (R179, R181 to R183). That the two bad-code rows
with a code that does name a command act as the write of that code is the model's choice (assumption log 14). -/
def Obligations.RowsAreRegisterWrites : Prop :=
  ∀ (i : Instr) (a : BitVec 12) (v : BusWord) (s : State), s.dev.held = false →
    hostAccessOf i = some (.write (2 * a.toNat) v) → exec i s = exec (.registerWrite a v) s

/-- "With a Page Mask of 0 the channel page reaches no channel": a read of the page returns 0, and a write of any of its
offsets is dropped with one BAD_WRITE of cause NO_CHANNEL, during a preload too, when it is not counted as dropped for the
preload (R135). -/
def Obligations.PageMaskZeroDropsTheWrite : Prop :=
  ∀ (a : BitVec 12) (v : BusWord) (s : State), s.dev.held = false → s.dev.host.pageMask = 0 →
    0x0100 ≤ 2 * a.toNat → 2 * a.toNat < 0x0200 →
    busRead s.dev (2 * a.toNat) = 0
      ∧ exec (.registerWrite a v) s = .next { s with dev := withBadWrite .noChannel (2 * a.toNat) s.dev }

/-- While a preload is in progress a host write of the RAM or of a configuration register stores nothing, counts once in
Dropped Writes, holding at 65535, and raises BAD_WRITE with cause PRELOAD (R176). -/
def Obligations.WritesDroppedDuringPreload : Prop :=
  ∀ (a : BitVec 12) (v : BusWord) (s : State), s.dev.held = false → preloadActive s.dev = true →
    droppedInPreload (2 * a.toNat) = true → (0x0100 ≤ 2 * a.toNat → 2 * a.toNat < 0x0200 → s.dev.host.pageMask ≠ 0) →
    exec (.registerWrite a v) s = .next { s with dev := (
      let d := withBadWrite .preload (2 * a.toNat) s.dev
      { d with
        preload :=
          { d.preload with dropped := if d.preload.dropped = 65535 then 65535 else d.preload.dropped + 1 } }) }

/-- A write of a register with no effect but its value: the channel page's plain configuration registers store the bits their
rules keep in every selected channel, read back so, and change nothing else; the Page Mask, the Device Command Argument, the
Command Argument, the Dwell Table and the Barrier Timeout store theirs; and a write of a read-only or unlisted offset is
ignored (R6, R8, R45, R81, R93, R117, R132, R133, R136, R142, R147). -/
def Obligations.RegisterWritesStoreTheirBits : Prop :=
  ∀ (a : BitVec 12) (v : BusWord) (s : State), s.dev.held = false →
    (∀ m, keptBits (2 * a.toNat) = some m → s.dev.host.pageMask ≠ 0 → preloadActive s.dev = false →
        ∃ t : State, exec (.registerWrite a v) s = .next t ∧ t.pending = s.pending
          ∧ { t.dev with chans := s.dev.chans } = s.dev
          ∧ ∀ c,
            (inMask s.dev.host.pageMask c = false → t.dev.chan c = s.dev.chan c)
              ∧ (inMask s.dev.host.pageMask c = true →
                  (∀ o, chanRead (t.dev.chan c) o = if o = 2 * a.toNat then v &&& m else chanRead (s.dev.chan c) o)
                    ∧ { t.dev.chan c with
                          config := (s.dev.chan c).config
                          gen := { (t.dev.chan c).gen with invert := (s.dev.chan c).gen.invert } } = s.dev.chan c))
      ∧ (2 * a.toNat = 0x0006 →
          exec (.registerWrite a v) s
            = .next { s with dev := { s.dev with host := { s.dev.host with pageMask := v.setWidth 8 } } })
      ∧ (2 * a.toNat = 0x000A →
          exec (.registerWrite a v) s = .next { s with dev := { s.dev with host := { s.dev.host with argument := v } } })
      ∧ (2 * a.toNat = 0x0102 → s.dev.host.pageMask ≠ 0 →
          exec (.registerWrite a v) s
            = .next { s with dev := mapSelected (fun k => { k with ctl := { k.ctl with command := v } }) s.dev })
      ∧ (∀ k : Fin 8, 2 * a.toNat = 0x0020 + 2 * k.val → preloadActive s.dev = false →
          exec (.registerWrite a v) s
            = .next { s with dev := { s.dev with dwell := s.dev.dwell.set k (v.setWidth 12) } })
      ∧ (∀ g : Grp, 2 * a.toNat = 0x008A + 0x10 * g.val → preloadActive s.dev = false →
          exec (.registerWrite a v) s = .next { s with dev := (
            modGroup g (fun x =>
              { x with barrierTimeout := if v.toNat % 256 = 0 then 1 else v.setWidth 8 }) s.dev) })
      ∧ (ignoredOffset (2 * a.toNat) = true →
          (0x0100 ≤ 2 * a.toNat → 2 * a.toNat < 0x0200 → s.dev.host.pageMask ≠ 0) →
          exec (.registerWrite a v) s = .next s)

/-- A word written to the shared RAM is stored, its low byte at the lower offset, and every other byte is as it was; a ring's
control word at the fill position is also handed to its channel as a handback. Where an ending of the channel stands between its two
fills, a host write of its ring is served there, and then the second record is filled and the ending closes (R86, R180). A channel
in STALL takes a handback with the fill it asks for, in its grant: the record is written where the control word shows PART and the
work goes on, and else the channel stays stalled; elsewhere it takes one as no happening (R1, R75, R77, R83, R84). The model's
choice: the byte order (assumption log 6), the grant within the taking and where an ending stands (18), and that the row with no
handback handed changes nothing (19). -/
def Obligations.RamWritesAndHandbacks : Prop :=
  ∀ s : State, s.dev.held = false →
    let stored := fun (a : Nat) (v : BusWord) (t : State) =>
      t.pending = s.pending
        ∧ ∀ b, ramByte t.dev b =
            if b = a then v.setWidth 8 else if b = a + 1 then v.extractLsb' 8 8 else ramByte s.dev b
    (preloadActive s.dev = false →
        (∀ (i : Idx) (w : Fin 4) (v : BusWord), ∃ t : State, exec (.planTableWrite i w v) s = .next t
            ∧ stored (0x0400 + 8 * i.val + 2 * w.val) v t ∧ { t.dev with ram := s.dev.ram } = s.dev)
          ∧ (∀ (c : Chan) (p : RingPos), (∀ e, s.dev.ending = some e → e.chan ≠ c) →
              (∀ (w : Fin 15) (v : BusWord), ∃ t : State, exec (.ringBodyWordWrite c p w v) s = .next t
                  ∧ stored (0x0800 + 0x200 * c.val + 32 * p.val + 2 * (w.val + 1)) v t
                  ∧ { t.dev with ram := s.dev.ram } = s.dev)
                ∧ ∀ v : BusWord, ∃ t : State, exec (.ringControlWordWrite c p v) s = .next t
                    ∧ stored (0x0800 + 0x200 * c.val + 32 * p.val) v t
                    ∧ { t.dev with ram := s.dev.ram } =
                        if (s.dev.ctl c).fillPosition = p then
                          modCtl c (fun k => { k with handbacks := k.handbacks + 1 }) s.dev
                        else s.dev)
          ∧ ∀ (e : Ending) (p : RingPos), s.dev.ending = some e →
              let goesOn := fun (i : Instr) =>
                ∃ t : State, exec i { s with dev := { s.dev with ending := none } } = .next t
                  ∧ exec i s
                    = .next { t with dev := closedBy e.closing true e.chan (endingWrite e.chan e.summary t.dev) }
              (∀ (w : Fin 15) (v : BusWord), goesOn (.ringBodyWordWrite e.chan p w v))
                ∧ ∀ v : BusWord, goesOn (.ringControlWordWrite e.chan p v))
      ∧ ∀ c : Chan,
          ((s.dev.ctl c).handbacks = 0 → exec (.handback c) s = .next s)
            ∧ ((s.dev.ctl c).handbacks ≠ 0 → (s.dev.ctl c).task.phase ≠ .stall →
                exec (.handback c) s
                  = .next { s with dev := modCtl c (fun k => { k with handbacks := k.handbacks - 1 }) s.dev })
            ∧ ∀ (r : Record) (a : After), (s.dev.ctl c).handbacks ≠ 0 → (s.dev.ctl c).task = .stall r a →
                (granted s.dev (reqChan c) = false → exec (.handback c) s = .next s)
                  ∧ (granted s.dev (reqChan c) = true →
                      exec (.handback c) s = .next { s with dev := (
                        let d := modCtl c (fun k => { k with handbacks := k.handbacks - 1 }) (served (reqChan c) s.dev)
                        if (ramWord d (0x0800 + 0x200 * c.val + 32 * (s.dev.ctl c).fillPosition.val)).getLsbD 0 then
                          proceed c a (writeRecord c r d)
                        else d) })

/-! ### Events -/

/-- A write of an event set clears the events written as one and no other, in every selected channel or in the device, each set by a
happening of its own, before which any of the raises that wait for the set may be taken, in order (R152, R153, R156); which are is
a free value (assumption log 33). A write of an enable register stores the enables; a write of the Overrun Count sets it to 0. IRQ#
is low exactly while an event is pending with its enable set (R87, R151, R154, R155). -/
def Obligations.EventWritesAndTheInterruptLine : Prop :=
  (∀ (v : BusWord) (s : State), s.dev.held = false →
      (s.dev.host.pageMask ≠ 0 →
          (∃ (n : Chan → Nat) (f : Nat), exec (.channelEventSetWrite v) s
            = .next { s with dev := { mapChans (fun c k =>
                if inMask s.dev.host.pageMask c then
                  { k with
                    events := withRaises (k.raised.take (n c)) k.events &&& ~~~(v.setWidth 14)
                    raised := k.raised.drop (n c) }
                else k) s.dev with free := f } })
          ∧ exec (.eventEnableWrite .channel v) s
            = .next { s with dev := mapSelected (fun k => { k with enables := v.setWidth 14 }) s.dev })
        ∧ (∃ n : Nat, exec (.deviceEventSetWrite v) s
            = .next { s with dev :=
                { s.dev with
                  events := withDeviceRaises (s.dev.raised.take n) s.dev.events &&& ~~~(v.setWidth 9)
                  raised := s.dev.raised.drop n, free := s.dev.free + 1 } })
        ∧ exec (.eventEnableWrite .device v) s = .next { s with dev := { s.dev with enables := v.setWidth 9 } }
        ∧ (s.dev.host.pageMask ≠ 0 → preloadActive s.dev = false →
            exec (.overrunCountWrite v) s
              = .next { s with dev := mapSelected (fun k => { k with ctl := { k.ctl with overrun := 0 } }) s.dev }))
    ∧ ∀ d : Device, irqLow d = true ↔
        (∃ (c : Chan) (n : Nat), (d.chan c).events.getLsbD n = true ∧ (d.chan c).enables.getLsbD n = true)
          ∨ ∃ n : Nat, d.events.getLsbD n = true ∧ d.enables.getLsbD n = true

/-! ### Device commands -/

/-- SNAPSHOT copies, for every channel its argument names, the monitor counters, state, phase, current index and Millisecond
Counter into the channel's snapshot registers, and counts the copy (R143). That all the copies are made in one step, at one time, is
the model's choice (assumption log 13). -/
def Obligations.SnapshotCopiesNamedChannels : Prop :=
  ∀ s : State, s.dev.held = false →
    exec .snapshot s = .next { s with dev := (
      mapChans (fun c k =>
        if s.dev.host.argument.getLsbD c.val then
          { k with
            snap :=
              { monitor := k.chk.monitor, state := k.ctl.state, phase := k.ctl.task.phase, index := k.ctl.current,
                time := s.dev.time.ms, seq := k.snap.seq + 1 } }
        else k)
        { s.dev with host := { s.dev.host with lastCommand := 1, status := .accepted } }) }

/-- PRELOAD is taken when every channel is OFF or IDLE and no preload is in progress, ABORT_PRELOAD while one is, and each is
refused otherwise; a code that names no device command is refused with BAD_CODE (R142, R145, R146, R168, R177). The start
actions of an earlier preload that are still handed stay handed: the model's choice (assumption log 24). -/
def Obligations.DeviceCommandsTakenOrRefused : Prop :=
  ∀ s : State, s.dev.held = false →
    let taken := fun (code : BitVec 8) =>
      ({ s.dev with host := { s.dev.host with lastCommand := code, status := .accepted } } : Device)
    let refused := fun (code : BitVec 8) (st : DeviceStatus) =>
      withBadWrite .deviceCommand 0x0008 { s.dev with host := { s.dev.host with lastCommand := code, status := st } }
    let ready := preloadActive s.dev = false ∧ ∀ c, (s.dev.ctl c).state = .off ∨ (s.dev.ctl c).state = .idle
    (ready →
        exec .preload s = .next { s with dev := { taken 2 with preload := (
          { Preload.default s.dev.preload.strapPreload s.dev.preload.strapAddress with
            state := .header
            work := .transfer
              { kind := .header, device := 0x50 + s.dev.preload.strapAddress.setWidth 7, address := 0, length := 16, retries := 0 }
            start := s.dev.preload.start }) } })
      ∧ (¬ ready → exec .preload s = .next { s with dev := refused 2 .badState })
      ∧ (preloadActive s.dev = true →
          exec .abortPreload s = .next { s with dev := { taken 3 with preload := (
            { s.dev.preload with state := .aborted, work := .idle, staging := [] }) } })
      ∧ (preloadActive s.dev = false → exec .abortPreload s = .next { s with dev := refused 3 .badState })
      ∧ ∀ v : BusWord,
          (namesDeviceCommand v = false →
              exec (.deviceCommandBadCode v) s = .next { s with dev := refused (v.setWidth 8) .badCode })
            ∧ (codeNat v = 1 → exec (.registerWrite 0x004 v) s = exec .snapshot s)
            ∧ (codeNat v = 2 → exec (.registerWrite 0x004 v) s = exec .preload s)
            ∧ (codeNat v = 3 → exec (.registerWrite 0x004 v) s = exec .abortPreload s)

/-! ### Groups and the Lane Matrix: host writes -/

/-- A Members or Lead write that keeps the membership rules is stored, a Lead outside the new Members becoming none; one that
would break them, or that meets a group in RUNNING or STOPPING, is not stored and raises BAD_WRITE with cause GROUP_RULE
(R116, R117). -/
def Obligations.MembersAndLeadWrites : Prop :=
  ∀ (g : Grp) (v : BusWord) (s : State), s.dev.held = false → preloadActive s.dev = false →
    let x := s.dev.group g
    let m : BitVec 8 := v.setWidth 8
    let fits := x.state = .idle ∧ ∀ h, h ≠ g → ∀ c, inMask (s.dev.group h).members c = true → inMask m c = false
    let led := x.state = .idle ∧ (8 ≤ v.toNat % 16 ∨ x.members.getLsbD (v.toNat % 16) = true)
    (fits →
        exec (.membersWrite g v) s = .next { s with dev := (
          modGroup g (fun x =>
            { x with
              members := m, lead := match x.lead with | some c => if inMask m c then some c else none | none => none })
            s.dev) })
      ∧ (¬ fits →
          exec (.membersWrite g v) s = .next { s with dev := withBadWrite .groupRule (0x0080 + 0x10 * g.val) s.dev })
      ∧ (led →
          exec (.leadWrite g v) s = .next { s with dev := (
            modGroup g (fun x =>
              { x with lead := if h : v.toNat % 16 < 8 then some ⟨v.toNat % 16, h⟩ else none }) s.dev) })
      ∧ (¬ led →
          exec (.leadWrite g v) s = .next { s with dev := withBadWrite .groupRule (0x0082 + 0x10 * g.val) s.dev })

/-- A TX Source or Checker Source write stores its source, a TX code that names none storing OFF; a change raises
ROUTE_CHANGED, and a changed Checker Source acts on the checker as a break in its stream, by the report of the lane then
selected (R30, R109, R112, R113). -/
def Obligations.SourceWrites : Prop :=
  ∀ (c : Chan) (v : BusWord) (s : State), s.dev.held = false → preloadActive s.dev = false →
    let x : TxSource :=
      if h : 8 ≤ v.toNat ∧ v.toNat < 16 then .gen ⟨v.toNat - 8, by omega⟩
      else if h : 16 ≤ v.toNat ∧ v.toNat < 24 then .loop ⟨v.toNat - 16, by omega⟩
      else .off
    let r : Chan := ⟨v.toNat % 8, by omega⟩
    let changed := fun (k : Channel) => { k with raised := k.raised ++ [.routeChanged] }
    exec (.txSourceWrite c v) s = .next { s with dev := (
        let d : Device := { s.dev with lanes := { s.dev.lanes with txSource := s.dev.lanes.txSource.set c x } }
        if s.dev.lanes.txSource.get c = x then d else modChan c changed d) }
      ∧ (s.dev.lanes.checkerSource.get c = r → exec (.checkerSourceWrite c v) s = .next s)
      ∧ (s.dev.lanes.checkerSource.get c ≠ r →
          exec (.checkerSourceWrite c v) s = .next { s with dev := (
            modChan c
              (fun k => streamBreak ((s.dev.ctl r).state ≠ .off && s.dev.lanes.activity.get r) (changed k))
              { s.dev with lanes := { s.dev.lanes with checkerSource := s.dev.lanes.checkerSource.set c r } }) })

/-! ### Generators and checkers: host writes -/

/-- A write of the Generator Mode stores it, a code that names none storing OFF, and starts the mode's sequence; a write of
the User Length or of a User Word restarts a generator in USER and, in USER, the checker's search; a write of the Checker
Mode, Fixed Pattern or Fixed Polarity restarts the search, and the Checker Mode takes the checker into OFF and out of it (R21,
R22, R26 to R28, R30). -/
def Obligations.PatternRegisterWrites : Prop :=
  ∀ (v : BusWord) (s : State), s.dev.held = false → s.dev.host.pageMask ≠ 0 → preloadActive s.dev = false →
    let atUser := fun (f : Generator → Generator) (k : Channel) =>
      let g := f k.gen
      let k1 : Channel := { k with gen := if g.mode = .user then { g with position := 0 } else g }
      if k.chk.mode = .user then restartSearch k1 else k1
    let mode : CheckerMode :=
      if v.toNat % 4 = 0 then .auto else if v.toNat % 4 = 1 then .fixed else if v.toNat % 4 = 2 then .user else .off
    exec (.generatorModeWrite v) s = .next { s with dev := (mapSelected (fun k =>
        { k with
          gen :=
            match v.toNat with
            | 1 => { k.gen with mode := .lfsr .l7, history := 0xFFFFFFFF }
            | 2 => { k.gen with mode := .lfsr .l15, history := 0xFFFFFFFF }
            | 3 => { k.gen with mode := .lfsr .l23, history := 0xFFFFFFFF }
            | 4 => { k.gen with mode := .lfsr .l31, history := 0xFFFFFFFF }
            | 5 => { k.gen with mode := .user, position := 0 }
            | _ => { k.gen with mode := .off } }) s.dev) }
      ∧ exec (.userWordWrite .length v) s = .next { s with dev := (
          mapSelected (atUser fun g =>
            { g with userLength := if v = 0 then 1 else if 4 < v.toNat then 4 else v.setWidth 3 }) s.dev) }
      ∧ (∀ (q : Fin 4) (high : Bool), exec (.userWordWrite (.word q high) v) s = .next { s with dev := (
          mapSelected (atUser fun g =>
            { g with
              userWords := g.userWords.set q
                (if high then v ++ (g.userWords.get q).extractLsb' 0 16
                else (g.userWords.get q).extractLsb' 16 16 ++ v) }) s.dev) })
      ∧ exec (.checkerModeWrite .fixedPattern v) s = .next { s with dev := (
          mapSelected (fun k =>
            restartSearch
              { k with
                chk :=
                  { k.chk with
                    fixedPattern :=
                      if v.toNat % 4 = 0 then .l7 else if v.toNat % 4 = 1 then .l15
                      else if v.toNat % 4 = 2 then .l23 else .l31 } }) s.dev) }
      ∧ exec (.checkerModeWrite .fixedPolarity v) s = .next { s with dev := (
          mapSelected (fun k => restartSearch { k with chk := { k.chk with fixedInverted := v.getLsbD 0 } }) s.dev) }
      ∧ exec (.checkerModeWrite .mode v) s = .next { s with dev := (
          mapChans (fun c k =>
            let k1 : Channel := { k with chk := { k.chk with mode := mode } }
            let src := s.dev.lanes.checkerSource.get c
            let heard := s.dev.lanes.activity.get src && (s.dev.ctl src).state != .off
            if inMask s.dev.host.pageMask c = false then k
            else if k.ctl.state = .off then k1
            else if mode ≠ .off then
              if k.chk.state ≠ .off then restartSearch k1
              else if heard then
                { k1 with chk := { k1.chk with state := .search, previous := none, counts := Eight.build fun _ => 0 } }
              else { k1 with chk := { k1.chk with state := .nosignal } }
            else
              match k.chk.state with
              | .off => k1
              | .locked =>
                { k1 with
                  chk := chkEnterOff k1.chk, raised := k.raised ++ [.unlock],
                  ctl := { k.ctl with inbox := k.ctl.inbox ++ [.lockLost] } }
              | _ => { k1 with chk := chkEnterOff k1.chk }) s.dev) }

/-! ### Lanes -/

/-- A change of line activity changes the lane's report where its channel is not OFF, and every checker that watches the lane
hears the change, unless REFCLK is absent (R20, R29, R30). While the part is held in reset the line alone changes: the model's
choice (assumption log 17). -/
def Obligations.SignalReportsReachWatchers : Prop :=
  ∀ (r : Chan) (p : Bool) (s : State),
    exec (if p then .signalPresent r else .signalAbsent r) s = .next { s with dev := (
      mapChans (fun c k =>
        if s.dev.held = false ∧ s.dev.time.present = true ∧ (s.dev.ctl r).state ≠ .off ∧ s.dev.lanes.activity.get r ≠ p
          ∧ s.dev.lanes.checkerSource.get c = r
        then hearReport p k else k)
        { s.dev with lanes := { s.dev.lanes with activity := s.dev.lanes.activity.set r p } }) }

/-- In a word time with REFCLK present every powered transmit lane sends the word of its source, every generator of a powered
channel goes on by one word, and the prescaler counts one edge, with the tick where the edge produces one; in one with REFCLK
absent nothing happens. An LFSR word goes
on with the recurrence of its degree, bit 31 first, and the first LFSR-7 word after a start is 0x020C28F2 (R20, R22 to R26,
R110, R111, R158, R160, R161). That a looping lane keeps its word until the next is received, and that a word time with REFCLK absent is
none, are the model's choice (assumption logs 21, 32). -/
def Obligations.WordTimesSendAndAdvance : Prop :=
  (∀ s : State, s.dev.held = false → s.dev.time.present = false → exec .wordTime s = .next s)
    ∧ (∀ s : State, s.dev.held = false → s.dev.time.present = true →
        let off := fun (c : Chan) => (s.dev.ctl c).state = .off
        let plain := fun (g : Generator) =>
          match g.mode with
          | .off => (0x55555555 : LaneWord)
          | .lfsr p => lfsrNext p g.history
          | .user => g.userWords.get g.position
        let emitted := fun (c : Chan) =>
          let g := (s.dev.chan c).gen
          if off c then (0x55555555 : LaneWord) else if g.invert then ~~~(plain g) else plain g
        let sent := mapChans (fun c k =>
            { k with
              gen :=
                if off c then k.gen
                else
                  match k.gen.mode with
                  | .off => k.gen
                  | .lfsr p => { k.gen with history := lfsrNext p k.gen.history }
                  | .user =>
                    { k.gen with
                      position :=
                        if h : k.gen.position.val + 1 < k.gen.userLength.toNat ∧ k.gen.position.val + 1 < 4 then
                          ⟨k.gen.position.val + 1, h.2⟩
                        else 0 } })
            { s.dev with
              lanes :=
                { s.dev.lanes with
                  tx := Eight.build fun t =>
                    if off t then none
                    else
                      match s.dev.lanes.txSource.get t with
                      | .off => some 0x55555555
                      | .gen g => some (emitted g)
                      | .loop r =>
                        if ¬ off r ∧ s.dev.lanes.activity.get r = true then s.dev.lanes.tx.get t else some 0x55555555 } }
        exec .wordTime s = .next { s with dev := (
          if s.dev.time.prescaler + 1 < s.dev.time.tickLength then
            { sent with time := { s.dev.time with prescaler := s.dev.time.prescaler + 1, gap := 0 } }
          else
            ticked
              { sent with
                time := { s.dev.time with prescaler := 0, tickLength := s.dev.time.refDivider.toNat, gap := 0 } }) })
    ∧ (∀ (p : Lfsr) (n a : Nat), (p, n, a) ∈ [(Lfsr.l7, 7, 6), (.l15, 15, 14), (.l23, 23, 18), (.l31, 31, 28)] →
        ∀ (h : LaneWord) (i : Nat), i < 32 →
          let x : BitVec 64 := h ++ lfsrNext p h
          x.getLsbD i = Bool.xor (x.getLsbD (i + a)) (x.getLsbD (i + n)))
    ∧ lfsrNext .l7 0xFFFFFFFF = 0x020C28F2

/-- A received word, delivered while its lane reports signal and REFCLK is present, is sent on by the powered lanes that loop
the lane, and reaches every checker that watches it. OFF and NOSIGNAL make nothing of it. SEARCH in AUTO or FIXED compares it with
each candidate's prediction, in USER with each user word, and locks at a count of 16, the lowest candidate or position first. LOCKED
compares it with the word expected and counts it in the monitor counters and, while counting is open, in the point counters, which
hand a closure at the early-stop limit or at the end of the dwell, the early stop first; at the 32nd errored word in a row the lock
is lost and handed as lost after any closure (R20, R28, R30 to R40, R111). That an inverted candidate predicts from the complement of
the received word is assumption log 7. -/
def Obligations.ReceivedWordsReachCheckers : Prop :=
  ∀ (r : Chan) (w : LaneWord) (s : State), s.dev.held = false →
    let delivered := s.dev.time.present = true ∧ (s.dev.ctl r).state ≠ .off ∧ s.dev.lanes.activity.get r = true
    (¬ delivered → exec (.receiveWord r w) s = .next s)
      ∧ (delivered → ∃ t : State, exec (.receiveWord r w) s = .next t ∧ t.pending = s.pending
          ∧ { t.dev with chans := s.dev.chans, lanes := s.dev.lanes } = s.dev
          ∧ t.dev.lanes = { s.dev.lanes with tx := (Eight.build fun x =>
              if s.dev.lanes.txSource.get x = .loop r ∧ (s.dev.ctl x).state ≠ .off then some w
              else s.dev.lanes.tx.get x) }
          ∧ ∀ c,
            (s.dev.lanes.checkerSource.get c ≠ r → t.dev.chan c = s.dev.chan c)
              ∧ (s.dev.lanes.checkerSource.get c = r →
                  let k := s.dev.chan c
                  let x := k.chk
                  let form := fun (inverted : Bool) (q : Fin 4) =>
                    if inverted then ~~~(k.gen.userWords.get q) else k.gen.userWords.get q
                  let following := fun (q : Fin 4) =>
                    if h : q.val + 1 < k.gen.userLength.toNat ∧ q.val + 1 < 4 then (⟨q.val + 1, h.2⟩ : Fin 4) else 0
                  let locks := fun (y : Checker) =>
                    { k with
                      chk := { y with state := .locked, errorRun := 0 }
                      raised := k.raised ++ [.lock], ctl := { k.ctl with inbox := k.ctl.inbox ++ [.lockGained] } }
                  (x.state = .off ∨ x.state = .nosignal → t.dev.chan c = k)
                    ∧ (x.state = .search → (x.mode = .auto ∨ x.mode = .fixed) →
                        let known : Eight Nat := Eight.build fun i =>
                          match x.previous with
                          | none => x.counts.get i
                          | some p =>
                            if (x.mode = .auto ∨ candidatePattern i = x.fixedPattern ∧ candidateInverted i = x.fixedInverted)
                              ∧ predict (candidatePattern i) (candidateInverted i) p = w
                            then x.counts.get i + 1 else 0
                        (w = 0 ∨ w = BitVec.allOnes 32 →
                            t.dev.chan c
                              = { k with chk := { x with counts := Eight.build fun _ => 0, previous := some w } })
                          ∧ (w ≠ 0 → w ≠ BitVec.allOnes 32 → (x.previous = none ∨ ∀ i, known.get i < 16) →
                              t.dev.chan c = { k with chk := { x with counts := known, previous := some w } })
                          ∧ (w ≠ 0 → w ≠ BitVec.allOnes 32 → x.previous ≠ none → ∀ i, 16 ≤ known.get i →
                              (∀ j, j < i → known.get j < 16) →
                              t.dev.chan c = locks
                                { x with
                                  counts := known, previous := some w, detected := .lfsr (candidatePattern i),
                                  detectedInverted := candidateInverted i, userPosition := 0,
                                  reference := if candidateInverted i then ~~~w else w }))
                    ∧ (x.state = .search → x.mode = .user →
                        let known : Eight Nat := Eight.build fun i =>
                          if h : i.val < 4 then
                            let before : Fin 8 :=
                              if i.val = 0 then ⟨(k.gen.userLength.toNat - 1) % 4, by omega⟩ else ⟨i.val - 1, by omega⟩
                            if i.val < k.gen.userLength.toNat ∧ w = form x.fixedInverted ⟨i.val, h⟩ then x.counts.get before + 1
                            else 0
                          else 0
                        ((∀ i, known.get i < 16) →
                            t.dev.chan c = { k with chk := { x with counts := known, previous := some w } })
                          ∧ ∀ (q : Fin 4) (i : Fin 8), i.val = q.val → 16 ≤ known.get i → (∀ j, j < i → known.get j < 16) →
                              t.dev.chan c = locks
                                { x with
                                  counts := known, previous := some w, detected := .user,
                                  detectedInverted := x.fixedInverted, userPosition := q, expected := following q })
                    ∧ (x.state = .locked → x.detected ≠ .none →
                        let wanted : LaneWord :=
                          match x.detected with
                          | .lfsr p => if x.detectedInverted then ~~~(lfsrNext p x.reference) else lfsrNext p x.reference
                          | _ => form x.detectedInverted x.expected
                        let e := ((List.range 32).filter fun i => (w ^^^ wanted).getLsbD i).length
                        let one := if e = 0 then 0 else 1
                        let run := if e = 0 then 0 else x.errorRun + 1
                        let early := fun (limit : Option Nat) => limit.any fun l => decide (l ≤ x.point.bits + e)
                        let closure : List Handed :=
                          match x.point.target with
                          | none => []
                          | some (n, limit) =>
                            if early limit then [.closure true] else if x.point.words + 1 = n then [.closure false] else []
                        let y : Checker :=
                          { x with
                            monitor :=
                              { words := BitVec.ofNat 48 (min (2 ^ 48 - 1) (x.monitor.words.toNat + 1))
                                bits := BitVec.ofNat 40 (min (2 ^ 40 - 1) (x.monitor.bits.toNat + e))
                                errored := BitVec.ofNat 32 (min (2 ^ 32 - 1) (x.monitor.errored.toNat + one)) }
                            reference := match x.detected with | .lfsr p => lfsrNext p x.reference | _ => x.reference
                            expected := match x.detected with | .user => following x.expected | _ => x.expected
                            errorRun := run
                            point :=
                              if x.point.target = none then x.point
                              else
                                { words := x.point.words + 1, bits := x.point.bits + e, errored := x.point.errored + one
                                  firstError :=
                                    if x.point.firstError = none ∧ e ≠ 0 then some x.point.words else x.point.firstError
                                  target := if closure = [] then x.point.target else none } }
                        t.dev.chan c =
                          if run < 32 then { k with chk := y, ctl := { k.ctl with inbox := k.ctl.inbox ++ closure } }
                          else
                            { k with
                              chk :=
                                { y with
                                  state := .search, previous := none, counts := Eight.build fun _ => 0
                                  point := { y.point with target := none } }
                              raised := k.raised ++ [.unlock]
                              ctl := { k.ctl with inbox := k.ctl.inbox ++ closure ++ [.lockLost] } })))

/-! ### The Timebase -/

/-- RefDivider stores 10 to 200 and refuses other values with RANGE; a read of the Millisecond Counter's low word copies its
high word into the holding register; and a tick is the word times that complete the one in progress, the last of which counts the
Millisecond Counter's sub-count and every running timer once, while none comes with REFCLK absent (R158 to R162). That the row stands
for the edges it takes is the model's choice (assumption log 10). -/
def Obligations.TimebaseAccessesAndTicks : Prop :=
  (∀ (v : BusWord) (s : State), s.dev.held = false → preloadActive s.dev = false →
      exec (.refdividerWrite v) s = .next { s with dev := (
        if 10 ≤ v.toNat ∧ v.toNat ≤ 200 then { s.dev with time := { s.dev.time with refDivider := v } }
        else withBadWrite .range 0x0012 s.dev) })
    ∧ (∀ s : State, s.dev.held = false →
        exec .msCounterLowRead s = .next { s with dev := (
          { s.dev with
            time := { s.dev.time with msHolding := s.dev.time.ms.extractLsb' 16 16 }
            host := { s.dev.host with readData := s.dev.time.ms.extractLsb' 0 16 } }) })
    ∧ ∀ s : State, s.dev.held = false →
        (s.dev.time.present = false → exec .tick s = .next s)
          ∧ (s.dev.time.present = true →
              exec .tick s = .next (
                runAll (List.replicate (max 1 (s.dev.time.tickLength - s.dev.time.prescaler)) .wordTime) s)
                ∧ ∃ t : State, exec .tick s = .next t ∧ t.pending = s.pending
                    ∧ t.dev.time = { (ticked s.dev).time with prescaler := 0, tickLength := s.dev.time.refDivider.toNat, gap := 0 }
                    ∧ (∀ g, t.dev.group g = (ticked s.dev).group g)
                    ∧ ∀ c, t.dev.chan c = { (ticked s.dev).chan c with gen := (t.dev.chan c).gen })

/-- REFCLK lost: the monitor shows it absent, no lane sends, the loss is handed to every channel and to the Pace Controller,
and REF_LOST is raised; REFCLK returned: shown present, the return handed to every checker that is not OFF, a word time with the
edge that brings it, REF_OK raised; each only where the monitor did not show it already. A checker takes the return as a break in its
stream, by the report then standing (R30, R110, R158, R163, R164). The model's choice: that these rows stand for the monitor's own
detection (assumption log 31), that the returning edge is a word time (32), that a second loss handed before the first is taken counts
as one and a return handed waits while REFCLK is lost again (41), and that a return row with none handed changes nothing (19). -/
def Obligations.RefclkLossAndReturn : Prop :=
  ∀ s : State, s.dev.held = false →
    (s.dev.time.present = true →
        exec .refLost s = .next { s with dev := (
          mapChans (fun _ k => { k with ctl := { k.ctl with refLoss := true } })
            { s.dev with
              time := { s.dev.time with present := false, gap := 4 }
              lanes := { s.dev.lanes with tx := Eight.build fun _ => none }
              groupRefLoss := true, raised := s.dev.raised ++ [.refLost] }) }
        ∧ exec .refOk s = .next s)
      ∧ (s.dev.time.present = false →
          exec .refLost s = .next s
            ∧ ∃ t : State,
                exec .wordTime { s with dev := (
                  mapChans (fun _ k =>
                    { k with chk := { k.chk with refReturn := k.chk.refReturn || k.chk.state != .off } })
                    { s.dev with time := { s.dev.time with present := true } }) } = .next t
                  ∧ exec .refOk s = .next { t with dev := { t.dev with raised := t.dev.raised ++ [.refOk] } })
      ∧ ∀ c : Chan,
          ((s.dev.chan c).chk.refReturn = false ∨ s.dev.time.present = false → exec (.checkerRefclkReturn c) s = .next s)
            ∧ ((s.dev.chan c).chk.refReturn = true → s.dev.time.present = true →
                let src := s.dev.lanes.checkerSource.get c
                exec (.checkerRefclkReturn c) s = .next { s with dev := (
                  modChan c (fun k =>
                    streamBreak ((s.dev.ctl src).state ≠ .off && s.dev.lanes.activity.get src)
                      { k with chk := { k.chk with refReturn := false } }) s.dev) })

/-! ### The RAM Arbiter -/

/-- The next part grant goes to the first waiting requester after the one last served, in the rotation channel 0 to 7, the Pace
Controller, the Preload Controller. The Pace Controller keeps the request it holds for a group that still has a check read, a walk
fetch or a re-fetch waiting, and else requests for the first group that has one, in the rotation A to D after the group it last
served, or for none (R180). The model's choice (assumption log 18): a fetch or an ending write that a channel makes within a
happening of its own adds a turn of the channel to those to come; a turn that is first in the rotation passes, and makes its channel
the one last served; and while it is not, the requests ahead of it are served. -/
def Obligations.ArbiterServesInRotation : Prop :=
  ∀ (d : Device) (r : Requester),
    let turn := fun (a : Arbiter) (q : Requester) => (q.val + 9 - a.lastServed.val) % 10
    let waits := fun (q : Requester) => requesting d q = true ∨ ∃ c : Chan, q = reqChan c ∧ d.arbiter.turns.get c ≠ 0
    let first := fun (q : Requester) => waits q ∧ ∀ p, waits p → turn d.arbiter q ≤ turn d.arbiter p
    (granted d r = true ↔
        requesting d r = true ∧ ∀ q, requesting d q = true → turn (settled d) r ≤ turn (settled d) q)
      ∧ (∀ c : Chan, first (reqChan c) → d.arbiter.turns.get c ≠ 0 →
          settled d = settled { d with arbiter :=
            { d.arbiter with lastServed := reqChan c, turns := d.arbiter.turns.set c (d.arbiter.turns.get c - 1) } })
      ∧ ((∀ c : Chan, first (reqChan c) → d.arbiter.turns.get c = 0) → settled d = d.arbiter)
      ∧ served r d = { d with arbiter := { settled d with lastServed := r } }
      ∧ (∀ c : Chan,
          let more : Device :=
            { d with arbiter := { d.arbiter with turns := d.arbiter.turns.set c (d.arbiter.turns.get c + 1) } }
          takeTurn c d = { d with arbiter := settled more })
      ∧ (let asking := fun (g : Grp) => (d.group g).halting = false
           ∧ ((∃ n p, (d.group g).task = .check (.reading n p)) ∨ (∃ n, (d.group g).task = .walk n)
             ∨ ∃ i, (d.group g).task = .selectedRefetch i)
         let place := fun (g : Grp) => (g.val + 3 - d.arbiter.lastGroup.val) % 4
         (∀ g, d.arbiter.paceRequest = some g → asking g → paceRefresh d = d)
           ∧ ((∀ g, d.arbiter.paceRequest = some g → ¬ asking g) →
               (∀ g, asking g → (∀ h, asking h → place g ≤ place h) →
                   paceRefresh d = { d with arbiter := { d.arbiter with paceRequest := some g } })
                 ∧ ((∀ g, ¬ asking g) → paceRefresh d = { d with arbiter := { d.arbiter with paceRequest := none } })))

/-! ### The point cycle -/

/-- A point under way goes on or ends by what reaches its channel: the settle timer's expiry to LOCKWAIT, or to DWELL on a
checker already LOCKED; lock gained to DWELL with counting opened; a closure, lock lost or the lock timer's expiry to RECORD
with the point's outcome, or, for a candidate under Record Mode MOVES, on at once (R50 to R54, R99, R100, R122). The settle
after a reapplication ends in WAIT (R102). How what the checker hands waits and is taken is the model's choice (assumption log
9). -/
def Obligations.PointCycleHappenings : Prop :=
  ∀ (c : Chan) (s : State), s.dev.held = false →
    let k := s.dev.chan c
    let ended := fun (k1 : Channel) (p : Copy) (inDwell : Bool) (o : PointOutcome) =>
      let d := modChan c (fun _ => pointEnded k1 p inDwell o s.dev.time.ms) s.dev
      if k.ctl.origin = .track ∧ (forceOf k.ctl).track.recordMode = .moves then afterCandidate c d else d
    let left := fun (l : List Handed) => ({ k with ctl := { k.ctl with inbox := l } } : Channel)
    let dwelling := fun (p : Copy) (k1 : Channel) =>
      { k1 with
        ctl := { k1.ctl with task := .dwell p, timer := none }
        chk :=
          { k1.chk with
            point := { words := 0, bits := 0, errored := 0, firstError := none, target := some (p.dwellWords, p.limit) } } }
    (∀ p e l, k.ctl.task = .dwell p → k.ctl.inbox = .closure e :: l →
        exec (.pointClosure c) s
          = .next { s with dev := ended (left l) p true (if e then .earlyStop else .complete) })
      ∧ (∀ p l, k.ctl.task = .dwell p → k.ctl.inbox = .lockLost :: l →
          exec (.lockLost c) s = .next { s with dev := ended (left l) p true .lockLost })
      ∧ (∀ p, k.ctl.task = .lockwait p → k.ctl.timer = some { kind := .lock, left := 0 } →
          exec (.lockTimerExpiry c) s
            = .next { s with dev := ended { k with ctl := { k.ctl with timer := none } } p false .noLock })
      ∧ (∀ p l, k.ctl.task = .lockwait p → k.ctl.inbox = .lockGained :: l →
          exec (.lockGained c) s = .next { s with dev := modChan c (fun _ => dwelling p (left l)) s.dev })
      ∧ (∀ p, k.ctl.task = .settle p → k.ctl.timer = some { kind := .settle, left := 0 } →
          let k1 := left (k.ctl.inbox.filter fun h => h = .signalLost)
          exec (.settleTimerExpiry c) s = .next { s with dev := (
            modChan c (fun _ =>
              if k.chk.state = .locked then dwelling p k1
              else
                { k1 with
                  ctl :=
                    { k1.ctl with
                      task := .lockwait p,
                      timer := some { kind := .lock, left := 1000 * (forceOf k.ctl).lockTimeout.toNat } } }) s.dev) })
      ∧ (k.ctl.task = .resettle → k.ctl.timer = some { kind := .settle, left := 0 } →
          exec (.settleTimerExpiry c) s = .next { s with dev := (
            modCtl c (fun x =>
              { x with
                task := .wait, cycle := { list := [], position := 0, kept := [] }
                timer := some { kind := .interval, left := 1000 * (forceOf k.ctl).track.interval.toNat } }) s.dev) })

/-- Signal lost halts a solo channel in SWEEP past its check or in TRACK with cause SIGNAL, and is made nothing of elsewhere; REFCLK
loss halts a channel in APPLIED, SWEEP or TRACK with cause REFCLK, a check then ABANDONED, and is made nothing of elsewhere. The
ending records are the pending point record and a HALTED summary of a sweep; of the two only the first is filled where the host
waits with a write of the channel's ring, which is served before the second. Of a running group, a lead that loses its signal aborts
the group and halts with its own records, another member is ejected in HALTED, and a member that takes the REFCLK loss leaves
At-Barrier, halts, and reports it to the Pace Controller (R13, R62, R65, R69, R70, R86, R107, R115, R126, R127, R130, R180). The
model's choice: the time of a summary where the selected re-fetch waits, and the time and figures of one that replaces a pending one
(assumption log 26); that a waiting host write is the command to be taken next (18); when a halted member leaves At-Barrier (22); that
an ejection takes a halt report that is on its way (23); and that a loss row with none handed changes nothing (19). -/
def Obligations.SignalAndRefclkLossHalt : Prop :=
  (∀ (c : Chan) (g : Grp) (s : State), s.dev.held = false → noEndHanded (s.dev.ctl c) → runningGroup s.dev c = some g →
    (s.dev.ctl c).group = some g → (s.dev.ctl c).state = .sweep →
    let waits := ringWriteNext c s.pending
    let k := s.dev.chan c
    let x := s.dev.group g
    let ms := s.dev.time.ms
    (∀ l, k.ctl.inbox = .signalLost :: l →
        let d := modCtl c (fun y => { y with inbox := l }) s.dev
        (k.ctl.task.phase = .none ∨ k.ctl.task.inCheck = true → exec (.signalLost c) s = .next { s with dev := d })
          ∧ (k.ctl.task.phase ≠ .none → k.ctl.task.inCheck = false → x.lead = some c →
              exec (.signalLost c) s = .next { s with dev := (
                endsWith waits c (endingPointOf k .signalLost ms ++ [memberSummaryOf k (figuresOf x) .halted 0 .signal ms])
                  (.halt .signal false) true (groupSweepEnds g (some .aborted) (some (.abort (figuresOf x))) d)) })
          ∧ (k.ctl.task.phase ≠ .none → k.ctl.task.inCheck = false → x.lead ≠ some c →
              exec (.signalLost c) s = .next { s with dev := ejectedFrom g (some .signalLost) .halted .signal c d }))
      ∧ (k.ctl.refLoss = true →
          exec (.channelRefclkLoss c) s = .next { s with dev := (
            endsWith waits c
              (endingPointOf k .refLost ms
                ++ if x.begun then [memberSummaryOf k (figuresOf x) .halted 0 .refclk ms] else [])
              (.halt .refclk true) x.begun
              (modGroup g
                (fun y =>
                  { y with
                    atBarrier := y.atBarrier &&& ~~~(BitVec.ofNat 8 (2 ^ c.val)), reports := y.reports.set c none })
                (modCtl c (fun y => { y with refLoss := false }) s.dev))) }))
  ∧ ∀ (c : Chan) (s : State), s.dev.held = false → (s.dev.ctl c).message = none → runningGroup s.dev c = none →
    chanRule (s.dev.chan c) →
    let k := s.dev.chan c
    let works := (k.ctl.state = .sweep ∨ k.ctl.state = .track) ∧ k.ctl.task.inCheck = false
    let halts := fun (o : PointOutcome) (cause : HaltCause) (d : Device) =>
      endsWith (ringWriteNext c s.pending) c
        (endingPointOf k o s.dev.time.ms ++ endingSummaryOf k .halted cause (s.dev.time.ms.setWidth 16)) (.halt cause false)
        (sweepUnderWay k.ctl) (modCtl c (fun x => { x with selection := selectionAtEnd k.ctl }) d)
    (∀ l, k.ctl.inbox = .signalLost :: l →
        let d := modCtl c (fun x => { x with inbox := l }) s.dev
        (works → exec (.signalLost c) s = .next { s with dev := halts .signalLost .signal d })
          ∧ (¬ works → exec (.signalLost c) s = .next { s with dev := d }))
      ∧ (k.ctl.refLoss = true →
          let d := modCtl c (fun x => { x with refLoss := false }) s.dev
          (works ∨ k.ctl.state = .applied →
              exec (.channelRefclkLoss c) s = .next { s with dev := halts .refLost .refclk d })
            ∧ (k.ctl.state = .sweep → k.ctl.task.inCheck = true →
                exec (.channelRefclkLoss c) s = .next { s with dev := (
                  haltWith c [] .refclk false
                    (modCtl c (fun x =>
                      { x with planCheck := { x.planCheck with result := .abandoned, fetch := false } }) d)) })
            ∧ (k.ctl.state = .off ∨ k.ctl.state = .idle ∨ k.ctl.state = .halted →
                exec (.channelRefclkLoss c) s = .next { s with dev := d }))
      ∧ (k.ctl.refLoss = false → exec (.channelRefclkLoss c) s = .next s)

/-! ### Plan checks and fetches -/

/-- A plan check reads one entry in a grant, passes over SKIP, judges FIELD, DWELL_UNSET and DUPLICATE in that order, and
after WinLast EMPTY or PASS; the Plan Check register shows RUNNING and the next entry (R3, R10, R11, R14). Its end begins the
sweep, or returns the channel to IDLE or APPLIED with PLAN_INVALID and CMD_REFUSED (R12, R48, R139). The register's index once
the last entry has been read is a free value (assumption log 2). -/
def Obligations.PlanChecksJudgeTheWindow : Prop :=
  (∀ (d : Device) (w : Window) (n : Idx) (prev : Option Settings),
      let e := readEntry d n
      let seen := if e.skip then prev else some e.settings
      checkRead d w n prev =
        if e.skip = false ∧ settingsInRange e.settings = false then .judged .field n
        else if e.skip = false ∧ d.dwell.get e.dwellClass = 0 then .judged .dwellUnset n
        else if e.skip = false ∧ prev = some e.settings then .judged .duplicate n
        else if n.val < w.last.val then .reading (idxOf (n.val + 1)) seen
        else if seen = none then .judged .empty w.last
        else .judged .pass w.last)
    ∧ (∀ (c : Chan) (s : State) (w : Window) (n : Idx) (prev : Option Settings), s.dev.held = false →
        (s.dev.ctl c).task = .check (.reading n prev) → (s.dev.ctl c).window = some w →
        granted s.dev (reqChan c) = true →
        let show_ := fun (p : CheckProgress) (i : Idx) (d : Device) =>
          modCtl c (fun k =>
            { k with task := .check p, planCheck := { result := .running, index := i, fetch := false } }) (served (reqChan c) d)
        match checkRead s.dev w n prev with
        | .reading m seen =>
          exec (.planCheckRead c) s = .next { s with dev := show_ (.reading m seen) m s.dev }
        | .judged r i => ∃ j, exec (.planCheckRead c) s
            = .next { s with dev := show_ (.judged r i) j { s.dev with free := s.dev.free + 1 } })
    ∧ ∀ (c : Chan) (s : State) (r : CheckResult) (i : Idx), s.dev.held = false →
        (s.dev.ctl c).task = .check (.judged r i) →
        let told := fun (st : LastStatus) (k : Controller) =>
          { k with
            planCheck := { result := r, index := i, fetch := false }
            lastStatus := if k.lastStatus = .checking then st else k.lastStatus }
        let refused := fun (k : Channel) => { k with raised := k.raised ++ [.cmdRefused] }
        (∀ w, r = .pass → (s.dev.ctl c).window = some w → w.first.val ≤ w.last.val →
            exec (.planCheckEnd c) s = .next { s with dev := (
              modCtl c (fun k =>
                { told .accepted k with
                  seq := k.seq + 1, prior := none, stopping := false, task := .walk w.first
                  selection :=
                    { best := none, runFirst := 0, runLength := 0, longestFirst := 0, longestLength := 0, measured := 0,
                      usable := 0, lastPoint := none } }) s.dev) })
          ∧ (∀ j w, r ≠ .pass → (s.dev.ctl c).prior = some { applied := some j, window := w } →
              exec (.planCheckEnd c) s = .next { s with dev := (
                modChan c (fun k =>
                  refused
                    { k with
                      ctl :=
                        { told .planInvalid k.ctl with
                          state := .applied, task := .idle, origin := .none, stopping := false, current := some j,
                          window := w, force := none, prior := none, group := none, message := none,
                          report := none } }) s.dev) })
          ∧ (r ≠ .pass → (∀ q, (s.dev.ctl c).prior = some q → q.applied = none) →
              exec (.planCheckEnd c) s = .next { s with dev := (
                modChan c (fun k =>
                  refused (restedIn .idle { k with ctl := told .planInvalid k.ctl })) s.dev) })

/-- The fetches of a solo sweep and of a SINGLE's return, each in one grant. A walk passes over SKIP to the next entry, or ends the
sweep where the window is done; it applies a valid entry as the current one and settles, and an invalid one halts the sweep with
cause PLAN, its INVALID_ENTRY record and a HALTED summary, between whose fills a waiting host write of the channel's ring is served
(assumption log 18). The re-fetch of the selected index applies it with its SELECTED summary, or halts, with the time its ending
began: the model's choice (assumption log 26). The fetch of the prior index after a SINGLE brings the channel back to APPLIED, or
halts (R15 to R18, R49, R53, R59, R60, R65, R68, R86, R180). -/
def Obligations.SweepFetches : Prop :=
  ∀ (c : Chan) (s : State), s.dev.held = false → granted s.dev (reqChan c) = true →
    let k := s.dev.chan c
    let ms := s.dev.time.ms
    let d := served (reqChan c) s.dev
    let fails := fun (rs : List Record) (r : CheckResult) (i : Idx) =>
      endsWith (ringWriteNext c s.pending) c rs (.halt .plan false) (sweepUnderWay k.ctl) (modChan c (fetchFailed r i) d)
    (∀ (n : Idx) (w : Window), k.ctl.task = .walk n → k.ctl.window = some w →
        let e := readEntry s.dev n
        let words := (s.dev.dwell.get e.dwellClass).toNat * 1024
        let p : Copy :=
          { index := n, settings := e.settings, dwellWords := words,
            limit := if e.limit = 0 then none else some e.limit.toNat, tag := e.tag }
        let invalid := invalidPointFor k n ms :: endingSummaryOf k .halted .plan (ms.setWidth 16)
        (e.skip = true → n.val < w.last.val →
            exec (.walkFetch c) s
              = .next { s with dev := modCtl c (fun x => { x with task := .walk (idxOf (n.val + 1)) }) d })
          ∧ (e.skip = true → w.last.val ≤ n.val → exec (.walkFetch c) s = .next { s with dev := sweepCloses c d })
          ∧ (e.skip = false → settingsInRange e.settings = true → words ≠ 0 →
              exec (.walkFetch c) s = .next { s with dev := (
                settleFrom c p
                  (modChan c (fun x => { x with front := e.settings, ctl := { x.ctl with current := some n } }) d)) })
          ∧ (e.skip = false → settingsInRange e.settings = false →
              exec (.walkFetch c) s = .next { s with dev := fails invalid .field n })
          ∧ (e.skip = false → settingsInRange e.settings = true → words = 0 →
              exec (.walkFetch c) s = .next { s with dev := fails invalid .dwellUnset n }))
      ∧ (∀ (i : Idx) (t : BitVec 16), k.ctl.task = .selectedRefetch i t →
          match directedFetch s.dev i none with
          | .ok p => exec (.selectedRefetch c) s = .next { s with dev := (
              modChan c (fun x =>
                { x with
                  front := p.settings
                  ctl :=
                    { x.ctl with
                      current := some i
                      task := .record
                        (.summary
                          { group := false, outcome := .selected, policy := (forceOf k.ctl).policy, selected := i,
                            measured := k.ctl.selection.measured, usable := k.ctl.selection.usable,
                            runFirst := k.ctl.selection.longestFirst, runLength := k.ctl.selection.longestLength,
                            seq := k.ctl.seq, cause := .none, stamp := t })
                        (.selected true) } }) d) }
          | .error r => exec (.selectedRefetch c) s
              = .next { s with dev := fails (endingSummaryOf k .halted .plan t) r i })
      ∧ ∀ i : Idx, k.ctl.task = .singleReturn i → k.ctl.origin = .single →
          match directedFetch s.dev i none with
          | .ok p => exec (.singleReturnFetch c) s = .next { s with dev := (
              modChan c (fun x =>
                nowApplied { x with front := p.settings, ctl := { x.ctl with current := some i } }) d) }
          | .error r => exec (.singleReturnFetch c) s
              = .next { s with dev := haltWith c [] .plan false (modChan c (fetchFailed r i) d) }

/-! ### Rings -/

/-- A fill writes the record at the fill position, whose control word shows PART: the control word with OWN = HOST and the
WRAP and IRQ it read, the 15 body words, no byte outside the descriptor; the fill position advances, to 0 after WRAP or
position 15, and POINT is raised if IRQ was set. A ring that shows HOST is full: STALL with RING_STALL, or a discard under DROP
with OVERRUN; a stalled channel requests no fill of its own accord. An ending write discards on a full ring whatever the policy
(R78, R79, R81 to R87, R92). That an ending write is made within its happening, and its turn in the rotation comes behind those
that wait ahead of it, is the model's choice (assumption log 18), and so is that a fill row with no fill requested changes nothing
(19). -/
def Obligations.FillsWriteTheRecord : Prop :=
  (∀ (c : Chan) (r : Record) (d : Device),
      let a := 0x0800 + 0x200 * c.val + 32 * (d.ctl c).fillPosition.val
      let w := ramWord d a
      let t := writeRecord c r d
      (ramWord t a).getLsbD 0 = false ∧ (ramWord t a).getLsbD 1 = w.getLsbD 1 ∧ (ramWord t a).getLsbD 2 = w.getLsbD 2
        ∧ ramWord t a = controlWord r (w.getLsbD 1) (w.getLsbD 2)
        ∧ (∀ j, j < 15 → ramWord t (a + 2 * (j + 1)) = (bodyWords r).getD j 0)
        ∧ (∀ b, b < a ∨ a + 32 ≤ b → ramByte t b = ramByte d b)
        ∧ { t with ram := d.ram } = modChan c (fun k =>
            { k with
              raised := if w.getLsbD 2 then k.raised ++ [.point] else k.raised
              ctl :=
                { k.ctl with
                  fillPosition :=
                    if w.getLsbD 1 then 0 else ⟨(k.ctl.fillPosition.val + 1) % 16, Nat.mod_lt _ (by decide)⟩ } }) d)
    ∧ ∀ (c : Chan) (s : State) (r : Record) (a : After),
        let own := (ramWord s.dev (0x0800 + 0x200 * c.val + 32 * (s.dev.ctl c).fillPosition.val)).getLsbD 0
        let d := served (reqChan c) s.dev
        let discarded := modChan c (fun k =>
          { k with
            raised := k.raised ++ [.overrun]
            ctl := { k.ctl with overrun := if k.ctl.overrun = 255 then 255 else k.ctl.overrun + 1 } })
        (endingWrite c r s.dev = takeTurn c (if own then writeRecord c r s.dev else discarded s.dev))
          ∧ (s.dev.held = false → granted s.dev (reqChan c) = true →
              ((s.dev.ctl c).task = .record r a →
                  exec (.fill c) s = .next { s with dev := (
                    if own then proceed c a (writeRecord c r d)
                    else if (s.dev.chan c).config.ringPolicy = .drop then proceed c a (discarded d)
                    else
                      modChan c (fun k =>
                        { k with raised := k.raised ++ [.ringStall], ctl := { k.ctl with task := .stall r a } }) d) }))
          ∧ ((s.dev.ctl c).task = .stall r a → exec (.fill c) s = .next s)

/-- What follows a record that has been written or discarded: after a sweep point the walk of the next index, or the sweep's
ending once STOP was taken or the window is done; HOLD and the report of a group's member; APPLIED, or TRACK for a solo
Auto-track sweep, and SWEEP_END after SELECTED; IDLE at rest and SWEEP_END after NONE_USABLE; the saved state after a SINGLE;
the next candidate or the close of the cycle in TRACK; the settle, or APPLIED once STOP was taken, after a MOVE (R54, R60,
R61, R68, R83, R95, R100, R102, R105, R122). -/
def Obligations.WorkGoesOnAfterARecord : Prop :=
  ∀ (c : Chan) (d : Device),
    let k := d.chan c
    let sweepEnd := fun (x : Channel) => { x with raised := x.raised ++ [.sweepEnd] }
    let waiting := fun (x : Controller) =>
      { x with
        task := .wait, cycle := { list := [], position := 0, kept := [] }
        timer := some { kind := .interval, left := 1000 * (forceOf k.ctl).track.interval.toNat } }
    (k.ctl.stopping = true → proceed c .sweepPoint d = sweepCloses c d)
      ∧ (∀ i w, k.ctl.stopping = false → k.ctl.current = some i → k.ctl.window = some w →
          proceed c .sweepPoint d =
            if i.val < w.last.val then modCtl c (fun x => { x with task := .walk (idxOf (i.val + 1)) }) d
            else sweepCloses c d)
      ∧ (∀ r, proceed c (.memberPoint r) d = modCtl c (fun x => { x with task := .hold, report := some r }) d)
      ∧ (∀ solo,
          proceed c (.selected solo) d =
            if solo = true ∧ (forceOf k.ctl).autoTrack = true ∧ isMember d c = false then
              modChan c (fun x =>
                sweepEnd
                  { x with
                    ctl := waiting
                      { x.ctl with
                        state := .track, origin := .track, stopping := false, anchor := x.ctl.current, failCount := 0,
                        prior := none, group := none, message := none, report := none } }) d
            else modChan c (fun x => sweepEnd (nowApplied x)) d)
      ∧ proceed c .noneUsable d = modChan c (fun x => sweepEnd (restedIn .idle x)) d
      ∧ (∀ i w, k.ctl.prior = some { applied := some i, window := w } →
          proceed c .single d =
            modChan c (fun x =>
              { x with
                ctl := { x.ctl with task := .singleReturn i, timer := none }
                chk := { x.chk with point := { x.chk.point with target := none } } }) d)
      ∧ ((∀ q, k.ctl.prior = some q → q.applied = none) → proceed c .single d = modChan c (restedIn .idle) d)
      ∧ (k.ctl.stopping = true → proceed c .candidate d = modCtl c (fun x => { x with task := .closeFetch }) d)
      ∧ (k.ctl.stopping = false → k.ctl.cycle.position + 1 < k.ctl.cycle.list.length →
          proceed c .candidate d =
            modCtl c (fun x =>
              { x with task := .candidateFetch, cycle := { x.cycle with position := x.cycle.position + 1 } }) d)
      ∧ proceed c .move d =
          (if k.ctl.stopping = true then modChan c nowApplied d
          else if (forceOf k.ctl).settleTime = 0 then modCtl c waiting d
          else
            modCtl c (fun x =>
              { x with
                task := .resettle, timer := some { kind := .settle, left := (forceOf k.ctl).settleTime.toNat } }) d)

/-- A new point of a sweep is folded once, at its end. A usable point replaces Best exactly where its error ratio is lower,
formed as exact products; a passing point extends the Current Run, or begins one where its length is 0 or an index was passed
over, any other sets its length to 0, and a longer run becomes the Longest Run (R57, R58). The selection is the index of Best,
or under CENTRE the middle of the Longest Run (R59). -/
def Obligations.PointsAreScored : Prop :=
  (∀ (k : Channel) (p : Copy) (inDwell : Bool) (o : PointOutcome) (ms : BitVec 32), k.ctl.origin = .sweep →
      k.ctl.group = none →
      let x := k.ctl.selection
      let y := (pointEnded k p inDwell o ms).ctl.selection
      let bits := if inDwell then k.chk.point.bits else 0
      let words := if inDwell then k.chk.point.words else 0
      let passes := o = .complete ∧ bits ≤ (forceOf k.ctl).passLimit.toNat
      let run := if ∃ l, x.lastPoint = some l ∧ l.val + 1 ≠ p.index.val then 0 else x.runLength
      (o ≠ .complete → y.best = x.best)
        ∧ (o = .complete → x.best = none → y.best = some { index := p.index, bits := bits, words := words })
        ∧ (∀ b, o = .complete → x.best = some b →
            y.best = if bits * b.words < b.bits * words then some { index := p.index, bits := bits, words := words } else some b)
        ∧ (passes → run = 0 → y.runFirst = p.index ∧ y.runLength = 1)
        ∧ (passes → run ≠ 0 → y.runFirst = x.runFirst ∧ y.runLength = run + 1)
        ∧ (¬ passes → y.runLength = 0)
        ∧ (passes → x.longestLength < y.runLength → y.longestFirst = y.runFirst ∧ y.longestLength = y.runLength)
        ∧ (¬ (passes ∧ x.longestLength < y.runLength) → y.longestFirst = x.longestFirst ∧ y.longestLength = x.longestLength)
        ∧ y.measured = x.measured + 1 ∧ y.usable = (if o = .complete then x.usable + 1 else x.usable)
        ∧ y.lastPoint = some p.index)
    ∧ ∀ (policy : BitVec 2) (x : Selection),
        (x.usable = 0 → select policy x = none)
          ∧ (∀ b, 0 < x.usable → x.best = some b → (policy = 0 ∨ x.longestLength = 0) → select policy x = some b.index)
          ∧ (0 < x.usable → policy = 1 → 0 < x.longestLength → x.longestFirst.val + x.longestLength ≤ 128 →
              ∃ i, select policy x = some i ∧ i.val = x.longestFirst.val + (x.longestLength - 1) / 2)

/-! ### Tracks -/

/-- The interval timer's expiry begins a cycle: the channel reads, nearest first and the lower first of two, the other indices
within the Look-ahead that lie in the window in force and no more than the Step Limit from the anchor, one in each grant, and
leaves out those that show SKIP; the current index is candidate 0. With none to read the list is the current index alone (R97,
R98). -/
def Obligations.TrackCycleBegins : Prop :=
  ∀ (c : Chan) (s : State), s.dev.held = false →
    let k := s.dev.ctl c
    let fixed := fun (l : List Idx) (x : Controller) =>
      { x with task := .candidateFetch, cycle := { list := l, position := 0, kept := [] } }
    (∀ (i a : Idx) (w : Window), k.task = .wait → k.timer = some { kind := .interval, left := 0 } → k.current = some i →
        k.window = some w → k.anchor = some a →
        let t := (forceOf k).track
        let away := fun (j : Idx) => (j.val - i.val) + (i.val - j.val)
        ∃ todo : List Idx,
          exec (.intervalTimerExpiry c) s = .next { s with dev := (
            modCtl c (fun x =>
              let y := { x with timer := none }
              if todo = [] then fixed [i] y else { y with task := .listing todo [i] }) s.dev) }
            ∧ (∀ j, j ∈ todo ↔ j ≠ i ∧ away j ≤ t.lookAhead.toNat ∧ w.first.val ≤ j.val ∧ j.val ≤ w.last.val
                ∧ j.val ≤ a.val + t.stepLimit.toNat ∧ a.val ≤ j.val + t.stepLimit.toNat)
            ∧ todo.Pairwise (fun x y => away x < away y ∨ (away x = away y ∧ x.val < y.val)))
      ∧ ∀ (j : Idx) (todo found : List Idx), k.task = .listing (j :: todo) found → granted s.dev (reqChan c) = true →
          let found' := if (readEntry s.dev j).skip then found else found ++ [j]
          exec (.listRead c) s = .next { s with dev := (
            modCtl c (fun x => if todo = [] then fixed found' x else { x with task := .listing todo found' })
              (served (reqChan c) s.dev)) }

/-- The fetches of a track, each in one grant: a candidate's, in the Track Dwell class, puts its settings on the front end and
settles; the reapplication of the decided index applies it, with TRACK_MOVE and the MOVE record for a move; the fetch that
closes a STOP or an ABORT brings the current entry back and enters APPLIED. One that fails halts the channel with cause PLAN,
under Record Mode ALL with a candidate's INVALID_ENTRY record (R18, R99, R102, R103, R105 to R107). -/
def Obligations.TrackFetches : Prop :=
  ∀ (c : Chan) (s : State), s.dev.held = false → granted s.dev (reqChan c) = true → (s.dev.ctl c).origin = .track →
    let k := s.dev.chan c
    let d := served (reqChan c) s.dev
    let front := fun (p : Copy) => modChan c (fun x => { x with front := p.settings }) d
    let fails := fun (rs : List Record) (r : CheckResult) (i : Idx) =>
      haltWith c rs .plan false (modChan c (fetchFailed r i) d)
    let kept := fun (i : Idx) =>
      match k.ctl.cycle.kept.find? fun x => x.index = i with
      | some x => x.bits
      | none => 0
    (k.ctl.task = .candidateFetch →
        let i := k.ctl.cycle.list.getD k.ctl.cycle.position 0
        match directedFetch s.dev i (some (forceOf k.ctl).track.dwellClass) with
        | .ok p => exec (.candidateFetch c) s = .next { s with dev := settleFrom c p (front p) }
        | .error r => exec (.candidateFetch c) s = .next { s with dev := (
            fails (if (forceOf k.ctl).track.recordMode = .all then [invalidPointFor k i s.dev.time.ms] else []) r i) })
      ∧ (∀ i j : Idx, k.ctl.task = .reapply i → k.ctl.current = some j →
          match directedFetch s.dev i none with
          | .error r => exec (.reapplicationFetch c) s = .next { s with dev := fails [] r i }
          | .ok p => exec (.reapplicationFetch c) s = .next { s with dev := (
              if i = j then proceed c .move (front p)
              else
                modChan c (fun x =>
                  { x with
                    front := p.settings, raised := x.raised ++ [.trackMove]
                    ctl :=
                      { x.ctl with
                        current := some i
                        task := .record
                          (.move
                            { fromIndex := j, toIndex := i, fromErrors := kept j, toErrors := kept i,
                              anchor := k.ctl.anchor.getD j, stamp := s.dev.time.ms.setWidth 16 })
                          .move } }) d) })
      ∧ ∀ i : Idx, k.ctl.task = .closeFetch → k.ctl.current = some i →
          match directedFetch s.dev i none with
          | .error r => exec (.trackCloseFetch c) s = .next { s with dev := fails [] r i }
          | .ok p => exec (.trackCloseFetch c) s = .next { s with dev := modChan c nowApplied (front p) }

/-- "The decision of a cycle is one happening at the Channel Controller": with the best the COMPLETE candidate of fewest bit
errors among the others, the earlier of equals, the channel moves to it where the current candidate is not COMPLETE or has at
least its bit errors and the Hysteresis more, and stays otherwise; the fail count goes up where no candidate is usable and to
0 otherwise, and at the Track Fail Limit the channel raises TRACK_FAIL and halts (R101). -/
def Obligations.TrackDecidesItsCycle : Prop :=
  ∀ (c : Chan) (d : Device) (cur : Kept) (others : List Kept) (i : Idx), (d.ctl c).stopping = false →
    (d.ctl c).cycle.list.length ≤ (d.ctl c).cycle.position + 1 → (d.ctl c).cycle.kept = cur :: others →
    (d.ctl c).current = some i → (d.ctl c).origin = .track →
    let t := (forceOf (d.ctl c)).track
    let decided := fun (j : Idx) => modCtl c (fun k => { k with task := .reapply j, failCount := 0 }) d
    (∀ pre b post, others = pre ++ b :: post → b.complete = true → (∀ x ∈ pre, x.complete = true → b.bits < x.bits) →
        (∀ x ∈ post, x.complete = true → b.bits ≤ x.bits) →
        proceed c .candidate d =
          if cur.complete = false ∨ b.bits + t.hysteresis.toNat ≤ cur.bits then decided b.index else decided i)
      ∧ ((∀ x ∈ others, x.complete = false) → cur.complete = true → proceed c .candidate d = decided i)
      ∧ ((∀ x ∈ others, x.complete = false) → cur.complete = false →
          let n := (d.ctl c).failCount + 1
          (n < t.failLimit.toNat →
              proceed c .candidate d = modCtl c (fun k => { k with task := .reapply i, failCount := n }) d)
            ∧ (t.failLimit.toNat ≤ n →
                proceed c .candidate d =
                  haltWith c [] .trackFail false
                    (modChan c (fun k =>
                      { k with raised := k.raised ++ [.trackFail], ctl := { k.ctl with failCount := n } }) d)))

/-! ### Pace groups -/

/-- STOP and ABORT of a member of a running group (R118, R120, R126 to R128): the lead's STOP makes the group STOPPING and sets
Stopping at the members, or abandons the check; the lead's ABORT abandons the check, or aborts the group with its own records, IDLE
and SWEEP_END; another member's ABORT ejects it with its record, IDLE and EJECTED, after which a halting group in which no member
remains closes, an empty barrier cancels its timer, and a barrier at which every remaining member stands is released (R123, R124,
R130). That a halt report on its way is taken with the ejection is the model's choice (assumption log 23). -/
def Obligations.StopAndAbortInAGroup : Prop :=
  ∀ (c l : Chan) (g : Grp) (s : State), s.dev.held = false → (s.dev.ctl c).state = .sweep → noEndHanded (s.dev.ctl c) →
    runningGroup s.dev c = some g → (s.dev.group g).lead = some l → (s.dev.ctl c).group = some g →
    let x := s.dev.group g
    let k := s.dev.chan c
    let told := fun (code : BitVec 8) =>
      modCtl c (fun y => { y with lastCommand := code, lastStatus := .accepted }) s.dev
    let takesPart := fun (y : Channel) => y.ctl.group = some g
    (l = c → x.begun = true →
        exec (.stop c) s = .next { s with dev := (
          modGroup g (fun y => { y with state := .stopping })
            (mapChans (fun b y =>
              if inMask x.members b = true ∧ takesPart y then { y with ctl := { y.ctl with stopping := true } } else y)
              (told 0x07))) }
        ∧ exec (.abort c) s = .next { s with dev := (
            let figures := figuresOf x
            let records := endingPointOf k .aborted s.dev.time.ms
              ++ [memberSummaryOf k figures .aborted 0 .none s.dev.time.ms]
            modChan c (fun y => { restedIn .idle y with raised := y.raised ++ [.sweepEnd] })
              (writeAll c records (groupSweepEnds g (some .aborted) (some (.abort figures)) (told 0x08)))) })
      ∧ (l = c → x.begun = false →
          exec (.stop c) s = .next { s with dev := checkAbandoned g c (told 0x07) }
            ∧ exec (.abort c) s = .next { s with dev := checkAbandoned g c (told 0x08) })
      ∧ (l ≠ c →
          exec (.stop c) s = .next { s with dev := modChan c (withRefusal 0x07 .notLead) s.dev }
            ∧ exec (.abort c) s = .next { s with dev := ejectedFrom g (some .ejected) .idle .none c (told 0x08) })

/-- The Pace Controller's grants for a group and the end of its check (R14, R18, R120, R121, R129, R130, R180): a check read
is judged as for a solo sweep and shown at the lead; a passing check raises the members' sequence numbers and begins the walk,
a failing one returns the group and its members to IDLE and refuses at the lead; a walk passes over SKIP, hands a valid
entry's copy to the members, and on an invalid one halts the group; the re-fetch of the selected index hands out the ending,
or halts. The register's index after the last read is a free value (assumption log 2); the turns of the rotation that pass before a
grant are the model's choice (log 18). -/
def Obligations.PaceControllerGrants : Prop :=
  ∀ (g : Grp) (c : Chan) (s : State), s.dev.held = false → (s.dev.group g).lead = some c →
    let x := s.dev.group g
    let figures := figuresOf x
    let taking := fun (y : Channel) => y.ctl.group = some g
    let d : Device :=
      { s.dev with arbiter := { settled s.dev with lastServed := 8, lastGroup := g, paceRequest := none } }
    let grant := granted s.dev 8 = true ∧ s.dev.arbiter.paceRequest = some g
    let failsAt := fun (r : CheckResult) (i : Idx) (m : GroupMessage) =>
      paceRefresh (groupSweepEnds g (some .halted) (some m) (modChan c (fetchFailed r i) d))
    (∀ n prev w, grant → x.task = .check (.reading n prev) → x.window = some w →
        let shown := fun (p : CheckProgress) (i : Idx) (e : Device) =>
          paceRefresh
            (modGroup g (fun y => { y with task := .check p })
              (modCtl c (fun y => { y with planCheck := { result := .running, index := i, fetch := false } }) e))
        match checkRead s.dev w n prev with
        | .reading m seen =>
          exec (.groupCheckRead g) s = .next { s with dev := shown (.reading m seen) m d }
        | .judged r i =>
          ∃ j, exec (.groupCheckRead g) s
            = .next { s with dev := shown (.judged r i) j { d with free := s.dev.free + 1 } })
      ∧ (∀ r i w, x.task = .check (.judged r i) → x.halting = false → x.window = some w →
          (r = .pass → w.first.val ≤ w.last.val) →
          let told := fun (st : LastStatus) =>
            modCtl c (fun y =>
              { y with
                planCheck := { result := r, index := i, fetch := false }
                lastStatus := if y.lastStatus = .checking then st else y.lastStatus }) s.dev
          let inCheck := fun (b : Chan) (y : Channel) =>
            inMask x.members b = true ∧ taking y ∧ y.ctl.task = .memberCheck
          exec (.groupCheckEnd g) s = .next { s with dev := (
            if r = .pass then
              paceRefresh (modGroup g (fun y => { y with begun := true, task := .walk w.first })
                (mapChans (fun b y =>
                  if inCheck b y then
                    { y with ctl := { y.ctl with seq := y.ctl.seq + 1, stopping := false, task := .memberWait } }
                  else y) (told .accepted)))
            else
              groupSweepEnds g none none
                (mapChans (fun b y => if inCheck b y then restedIn .idle y else y)
                  (modChan c (fun y => { y with raised := y.raised ++ [.cmdRefused] }) (told .planInvalid)))) })
      ∧ (∀ n w, grant → x.task = .walk n → x.window = some w →
          let e := readEntry s.dev n
          let words := (s.dev.dwell.get e.dwellClass).toNat * 1024
          let p : Copy :=
            { index := n, settings := e.settings, dwellWords := words,
              limit := if e.limit = 0 then none else some e.limit.toNat, tag := e.tag }
          (e.skip = true → n.val < w.last.val →
              exec (.groupWalkFetch g) s
                = .next { s with dev := paceRefresh (modGroup g (fun y => { y with task := .walk (idxOf (n.val + 1)) }) d) })
            ∧ (e.skip = true → w.last.val ≤ n.val →
                exec (.groupWalkFetch g) s = .next { s with dev := paceRefresh (groupSelects g d) })
            ∧ (e.skip = false → settingsInRange e.settings = true → words ≠ 0 →
                exec (.groupWalkFetch g) s = .next { s with dev := paceRefresh (
                  mapChans (fun b y =>
                    if inMask x.members b = true ∧ taking y then { y with ctl := { y.ctl with message := some (.copy p) } }
                    else y)
                    (modGroup g (fun y => { y with current := some n, task := .point }) d)) })
            ∧ (e.skip = false → settingsInRange e.settings = false →
                exec (.groupWalkFetch g) s = .next { s with dev := failsAt .field n (.halt (some n) figures) })
            ∧ (e.skip = false → settingsInRange e.settings = true → words = 0 →
                exec (.groupWalkFetch g) s = .next { s with dev := failsAt .dwellUnset n (.halt (some n) figures) }))
      ∧ ∀ i, grant → x.task = .selectedRefetch i →
          match directedFetch s.dev i none with
          | .ok p => exec (.groupSelectedRefetch g) s
              = .next { s with dev := (
                paceRefresh (groupSweepEnds g (some .selected) (some (.ending (some p) figures)) d)) }
          | .error r => exec (.groupSelectedRefetch g) s
              = .next { s with dev := failsAt r i (.halt none figures) }

/-- A member takes what the Pace Controller has handed it (R118, R121, R127, R129, R130): the copy of a point, applied and settled;
the group's abort, with its records, IDLE at rest and SWEEP_END; the ending, SELECTED with the copy applied or NONE_USABLE at rest,
its summary an ordinary write; and the halt with cause PLAN. Between the two fills of an abort or a halt a waiting host write of the
channel's ring is served (R86, R180; assumption log 18). A STOP, ABORT, DISABLE or RESET_CHANNEL that reaches a member to which an
abort, an ending or a halt has been handed is taken after it. That last clause is the model's choice (assumption log 20): R141 has it
for an ABORT, DISABLE or RESET_CHANNEL after a group's abort alone, and a STOP, and an ending or a halt that has been handed, follow
it by inference. -/
def Obligations.MembersTakeWhatTheyAreHanded : Prop :=
  ∀ (c : Chan) (s : State), s.dev.held = false →
    let k := s.dev.chan c
    let ms := s.dev.time.ms
    let solo := fun (y : Controller) (r : Record) (a : After) =>
      { y with group := none, message := none, report := none, timer := none, task := .record r a }
    (∀ p, k.ctl.message = some (.copy p) →
        exec (.memberTakesCopy c) s = .next { s with dev := (
          settleFrom c p
            (modChan c (fun y =>
              { y with front := p.settings, ctl := { y.ctl with message := none, current := some p.index } }) s.dev)) })
      ∧ (∀ f, k.ctl.message = some (.abort f) →
          exec (.memberTakesAbort c) s = .next { s with dev := (
            endsWith (ringWriteNext c s.pending) c (endingPointOf k .aborted ms ++ [memberSummaryOf k f .aborted 0 .none ms]) .abort
              true s.dev) })
      ∧ (∀ p f, k.ctl.message = some (.ending (some p) f) →
          exec (.memberTakesEnding c) s = .next { s with dev := (
            modChan c (fun y =>
              { y with
                front := p.settings
                ctl := solo { y.ctl with current := some p.index } (memberSummaryOf k f .selected p.index .none ms)
                  (.selected false) }) s.dev) })
      ∧ (∀ f, k.ctl.message = some (.ending none f) →
          exec (.memberTakesEnding c) s = .next { s with dev := (
            modChan c (fun y =>
              { y with
                front := restSettings
                ctl := solo { y.ctl with current := none } (memberSummaryOf k f .noneUsable 0 .none ms) .noneUsable })
              s.dev) })
      ∧ (∀ i f, k.ctl.message = some (.halt i f) →
          let point := match i with | some n => [invalidPointFor k n ms] | none => []
          exec (.memberTakesHalt c) s = .next { s with dev := (
            endsWith (ringWriteNext c s.pending) c (point ++ [memberSummaryOf k f .halted 0 .plan ms]) (.halt .plan false) true
              s.dev) })
      ∧ ∀ i ∈ [Instr.stop c, .abort c, .disable c, .resetChannel c], ringWriteNext c s.pending = false →
          ((∃ f, k.ctl.message = some (.abort f)) → ∃ t, exec (.memberTakesAbort c) s = .next t ∧ exec i s = exec i t)
            ∧ ((∃ p f, k.ctl.message = some (.ending p f)) → ∃ t, exec (.memberTakesEnding c) s = .next t ∧ exec i s = exec i t)
            ∧ ((∃ n f, k.ctl.message = some (.halt n f)) → ∃ t, exec (.memberTakesHalt c) s = .next t ∧ exec i s = exec i t)

/-- A member report of the current point joins At-Barrier, the first of a point starting the barrier timer; a late or discarded one
does nothing. The report that completes the set releases the barrier: the point is folded on the sums of the present members'
reports, At-Barrier emptied, and the walk goes on, or the group ends where it is STOPPING. At the barrier timer's expiry the group
aborts where the lead is missing, and the missing members are ejected where it is not, in ascending order, the last ejection
releasing the barrier (R123 to R126). REFCLK loss taken by the Pace Controller, or reported by a member, makes a running group halt:
its barrier timer is cancelled, and it closes when no member remains in the sweep, with Last Outcome HALTED and GROUP_END where the
sweep had begun, and with the lead's check ABANDONED and no GROUP_END where it had not (R130). The model's choice: that a report
leaves the barrier timer alone where it runs and halted members have left At-Barrier empty (assumption log 22), what an ejection does
at a member that has halted (23), that one loss takes the groups in the order A to D (45), and that a loss row with none handed changes
nothing (19). -/
def Obligations.BarrierAndHaltingGroups : Prop :=
  ∀ (g : Grp) (s : State), s.dev.held = false →
    let x := s.dev.group g
    let remains := fun (h : Grp) => ∃ b, inMask (s.dev.group h).members b = true ∧ (s.dev.ctl b).group = some h
    (∀ c r, (s.dev.ctl c).report = some r → (s.dev.ctl c).group = some g →
        let y : Group :=
          { x with
            atBarrier := x.atBarrier ||| BitVec.ofNat 8 (2 ^ c.val), reports := x.reports.set c (some r)
            barrier := if x.atBarrier = 0 ∧ x.barrier = none ∧ x.halting = false then some (1000 * x.barrierTimeout.toNat) else x.barrier }
        let d := modCtl c (fun k => { k with report := none }) s.dev
        let joined := modGroup g (fun _ => y) d
        let complete := x.halting = false ∧ ∀ b, inMask x.members b = true → inMask y.atBarrier b = true
        (x.task ≠ .point ∨ inMask x.members c = false → exec (.memberReport c) s = .next { s with dev := d })
          ∧ (x.task = .point → inMask x.members c = true → ¬ complete →
              exec (.memberReport c) s = .next { s with dev := joined })
          ∧ (x.task = .point → inMask x.members c = true → complete →
              exec (.memberReport c) s = .next { s with dev := barrierReleased g joined }))
      ∧ (∀ l, x.barrier = some 0 → x.lead = some l → inMask x.members l = true →
          let d := modGroup g (fun y => { y with barrier := none }) s.dev
          (inMask x.atBarrier l = false →
              exec (.barrierTimerExpiry g) s
                = .next { s with dev := groupSweepEnds g (some .aborted) (some (.abort (figuresOf x))) d })
            ∧ (inMask x.atBarrier l = true →
                exec (.barrierTimerExpiry g) s = .next { s with dev := (
                  forMask (x.members &&& ~~~x.atBarrier) (ejectedFrom g (some .ejected) .idle .none) d) }))
      ∧ (s.dev.groupRefLoss = true → (∀ h, (s.dev.group h).state ≠ .idle → remains h) →
          ∃ t : State, exec .groupRefclkLoss s = .next t ∧ t.pending = s.pending
            ∧ { t.dev with
                  groups := s.dev.groups, arbiter := s.dev.arbiter, groupRefLoss := s.dev.groupRefLoss } = s.dev
            ∧ t.dev.groupRefLoss = false
            ∧ { t.dev.arbiter with paceRequest := s.dev.arbiter.paceRequest } = s.dev.arbiter
            ∧ ∀ h, t.dev.group h =
                if (s.dev.group h).state = .idle then s.dev.group h
                else { s.dev.group h with halting := true, barrier := none })
      ∧ (s.dev.groupRefLoss = true →
          exec .groupRefclkLoss s = .next { s with dev := (
            let halts := fun (h : Grp) (d : Device) => if (d.group h).state = .idle then d else groupHalts h d
            halts 3 (halts 2 (halts 1 (halts 0 { s.dev with groupRefLoss := false })))) })
      ∧ (s.dev.groupRefLoss = false → exec .groupRefclkLoss s = .next s)
      ∧ ∀ c, (s.dev.ctl c).haltReport = true →
          let d := modCtl c (fun k => { k with haltReport := false }) s.dev
          let out := modGroup g (fun y => { y with halting := true, barrier := none })
          (runningGroup s.dev c = none → exec (.memberHaltReport c) s = .next { s with dev := d })
            ∧ (runningGroup s.dev c = some g → remains g →
                exec (.memberHaltReport c) s = .next { s with dev := paceRefresh (out d) })
            ∧ (runningGroup s.dev c = some g → ¬ remains g → x.begun = true →
                exec (.memberHaltReport c) s
                  = .next { s with dev := groupSweepEnds g (some .halted) none (paceRefresh (out d)) })
            ∧ (∀ l, runningGroup s.dev c = some g → ¬ remains g → x.begun = false → x.lead = some l →
                exec (.memberHaltReport c) s = .next { s with dev := (
                  groupSweepEnds g none none
                    (modCtl l (fun y => { y with planCheck := { y.planCheck with result := .abandoned, fetch := false } })
                      (paceRefresh (out d)))) })

/-! ### The preload -/

/-- A transfer sends the device address with each direction and its starting address high byte first, and acknowledges every data
byte but the last. One that ends with the header accepts it, or fails the preload with the first fault of R172; one that ends with a
block's head reads on, or fails with FORMAT where the image cannot be walked; the last of a block's transfers lets the block be
judged: skipped on the first condition of R173 that it meets, or written, a DWELL, CHANNEL, ROUTE or GROUP block at once and a PLAN
or RING block one entry or control word in each grant. After a block the Preload Controller stands between blocks, Block Number as
it was, and after the last one the preload ends DONE with its start actions handed. A byte not acknowledged waits and tries again,
three times, and then fails with NO_ACK; a transfer that takes too long fails with BUS_TIMEOUT (R167 to R175, R177, R178, R185).
That a transfer of another length ends nothing is the model's choice (assumption log 8), and so are the turns of the rotation that
pass before a grant (18), the start actions of an earlier preload that stay handed (24), and that what reaches the serial port
between blocks finds the next block's head in transfer (43). -/
def Obligations.PreloadTransfersAndBlocks : Prop :=
  ∀ s : State, s.dev.held = false →
    let x := s.dev.preload
    let fails := fun (cause : PreloadCause) (f : HeaderFault) =>
      ({ s.dev with
          raised := s.dev.raised ++ [.preloadFail]
          preload := { x with state := .failed, cause := cause, headerFault := f, work := .idle, staging := [] } } : Device)
    let reading := fun (kind : TransferKind) (a n : Nat) =>
      PreloadWork.transfer { kind := kind, device := 0x50 + x.strapAddress.setWidth 7, address := a, length := n, retries := 0 }
    let onward := fun (staged : List Byte) (extent : Nat) =>
      if staged.length < extent then
        ({ s.dev with
            preload :=
              { x with
                staging := staged
                work := reading .body (x.blockAddress + staged.length) (min 32 (extent - staged.length)) } } : Device)
      else blockJudged staged s.dev
    (∀ t : Transfer, x.work = .transfer t →
        serialPort s.dev = some
          ([BitVec.ofNat 8 (2 * t.device.toNat), BitVec.ofNat 8 (t.address / 256), BitVec.ofNat 8 t.address,
              BitVec.ofNat 8 (2 * t.device.toNat + 1)],
            List.replicate (t.length - 1) true ++ [false]))
      ∧ (∀ (data : List Byte), (∀ t, x.work = .transfer t → data.length ≠ t.length) → (x.work = .between → data.length ≠ 4) →
          exec (.serialTransferDone data) s = .next s)
      ∧ (x.work = .between →
          let begun : State := { s with dev := blockBegun s.dev }
          serialPort s.dev = none
            ∧ (∀ data : List Byte, data.length = 4 → exec (.serialTransferDone data) s = exec (.serialTransferDone data) begun)
            ∧ exec .nack s = exec .nack begun ∧ exec .transferTimeout s = exec .transferTimeout begun)
      ∧ (∀ (data : List Byte) (t : Transfer), x.work = .transfer t → data.length = t.length →
        let ws := wordsOf data
        let n := (wordAt ws 2).toNat
        let length := (wordAt ws 3).toNat
        (t.kind = .header →
            exec (.serialTransferDone data) s = .next { s with dev := (
              if wordSum ws ≠ 0 then fails .header .checksum
              else if wordAt ws 0 ≠ 0xC318 then fails .header .signature
              else if wordAt ws 1 ≠ 1 then fails .header .version
              else if n = 0 ∨ 64 < n then fails .header .count
              else if length < 16 + 8 * n ∨ 16 + 70 * n < length then fails .header .length
              else
                { s.dev with
                  preload :=
                    { x with
                      state := .blocks, imageId := wordAt ws 6 ++ wordAt ws 5,
                      enableMask := (wordAt ws 4).extractLsb' 0 8, startMask := (wordAt ws 4).extractLsb' 8 8,
                      blockNumber := 1, blockCount := n, imageLength := length, blockAddress := 16, staging := [],
                      work := reading .head 16 4 } }) })
          ∧ (t.kind = .head →
              let payload := (wordAt ws 1).toNat
              exec (.serialTransferDone data) s = .next { s with dev := (
                if payload % 2 = 1 ∨ 64 < payload ∨ x.imageLength < x.blockAddress + 6 + payload then
                  fails .format x.headerFault
                else onward data (6 + payload)) })
          ∧ (t.kind = .body →
              let staged := x.staging ++ data
              exec (.serialTransferDone data) s = .next { s with dev := onward staged (6 + (wordAt (wordsOf staged) 1).toNat) }))
      ∧ (∀ t : Transfer, x.work = .transfer t →
          exec .nack s = .next { s with dev := (
              if t.retries < 3 then
                { s.dev with preload := { x with work := .retryWait { t with retries := t.retries + 1 } } }
              else fails .noAck x.headerFault) }
            ∧ exec .transferTimeout s = .next { s with dev := fails .busTimeout x.headerFault })
      ∧ (∀ t : Transfer, x.work = .retryWait t →
          exec .retryWaitExpiry s = .next { s with dev := { s.dev with preload := { x with work := .transfer t } } })
      ∧ ∀ (t : RamTarget) (ts : List RamTarget), x.work = .writing (t :: ts) → granted s.dev 9 = true →
          let stored :=
            match t with
            | .entry i ws => writeWords (0x0400 + 8 * i.val) ws s.dev
            | .control c p w => writeWord (0x0800 + 0x200 * c.val + 32 * p.val) w s.dev
          let d : Device := { stored with arbiter := { settled s.dev with lastServed := 9 } }
          exec .preloadRamWrite s = .next { s with dev := (
            if ts = [] then
              preloadGoesOn (6 + (wordAt (wordsOf x.staging) 1).toNat) { d with preload := { x with applied := x.applied + 1 } }
            else { d with preload := { x with work := .writing ts } }) }

/-- A handed ENABLE, and once every ENABLE has been taken a handed START_SWEEP, is taken as the command of its channel, and
the last of them raises PRELOAD_DONE; a command that is not handed is none: the model's choice (R175; assumption log 19). -/
def Obligations.PreloadHandsItsCommands : Prop :=
  ∀ (c : Chan) (s : State), s.dev.held = false →
    let after := fun (a : StartActions) (t : State) =>
      ({ t with
          dev :=
            if a.enables = 0 ∧ a.starts = 0 then
              { t.dev with preload := { t.dev.preload with start := none }, raised := t.dev.raised ++ [.preloadDone] }
            else { t.dev with preload := { t.dev.preload with start := some a } } } : State)
    let bit := BitVec.ofNat 8 (2 ^ c.val)
    (∀ a, s.dev.preload.start = some a → inMask a.enables c = true →
        ∃ t : State, exec (.enable c) s = .next t
          ∧ exec (.preloadHandedEnable c) s = .next (after { a with enables := a.enables &&& ~~~bit } t))
      ∧ (∀ a, s.dev.preload.start = some a → a.enables = 0 → inMask a.starts c = true →
          ∃ t : State, exec (.startSweep c) s = .next t
            ∧ exec (.preloadHandedStartSweep c) s = .next (after { a with starts := a.starts &&& ~~~bit } t))
      ∧ ((∀ a, s.dev.preload.start = some a → inMask a.enables c = false) →
          exec (.preloadHandedEnable c) s = .next s)
      ∧ ((∀ a, s.dev.preload.start = some a → a.enables ≠ 0 ∨ inMask a.starts c = false) →
          exec (.preloadHandedStartSweep c) s = .next s)
end

