-- ==== Sys2Proof/Laws/Table.lean ====
section
/-! SUPPORT. The laws of the two fixed-size tables: a read after a write. -/

namespace Sys2Proof

@[simp] theorem Eight.get_set_self {α : Type} (v : Eight α) (i : Fin 8) (a : α) : (v.set i a).get i = a := by
  fin_cases i <;> rfl

theorem Eight.get_set_ne {α : Type} (v : Eight α) {i j : Fin 8} (a : α) (h : j ≠ i) : (v.set i a).get j = v.get j := by
  revert h
  fin_cases i <;> fin_cases j <;> simp [Eight.set, Eight.get]

theorem Eight.get_set {α : Type} (v : Eight α) (i j : Fin 8) (a : α) :
    (v.set i a).get j = if j = i then a else v.get j := by
  split
  · next h => subst h; exact v.get_set_self j a
  · next h => exact v.get_set_ne a h

@[simp] theorem Eight.set_set {α : Type} (v : Eight α) (i : Fin 8) (a b : α) : (v.set i a).set i b = v.set i b := by
  fin_cases i <;> rfl

@[simp] theorem Eight.set_get {α : Type} (v : Eight α) (i : Fin 8) : v.set i (v.get i) = v := by
  fin_cases i <;> rfl

theorem Eight.set_comm {α : Type} (v : Eight α) {i j : Fin 8} (a b : α) (h : i ≠ j) :
    (v.set i a).set j b = (v.set j b).set i a := by
  revert h
  fin_cases i <;> fin_cases j <;> simp [Eight.set]

@[simp] theorem Eight.get_build {α : Type} (f : Fin 8 → α) (i : Fin 8) : (Eight.build f).get i = f i := by
  fin_cases i <;> rfl

theorem Eight.ext_get {α : Type} {v w : Eight α} (h : ∀ i, v.get i = w.get i) : v = w := by
  cases v; cases w
  have h0 := h 0; have h1 := h 1; have h2 := h 2; have h3 := h 3
  have h4 := h 4; have h5 := h 5; have h6 := h 6; have h7 := h 7
  simp only [Eight.get] at h0 h1 h2 h3 h4 h5 h6 h7
  simp_all

@[simp] theorem Eight.build_get {α : Type} (v : Eight α) : Eight.build (fun i => v.get i) = v :=
  Eight.ext_get fun i => Eight.get_build _ i

@[simp] theorem Four.get_set_self {α : Type} (v : Four α) (i : Fin 4) (a : α) : (v.set i a).get i = a := by
  fin_cases i <;> rfl

theorem Four.get_set_ne {α : Type} (v : Four α) {i j : Fin 4} (a : α) (h : j ≠ i) : (v.set i a).get j = v.get j := by
  revert h
  fin_cases i <;> fin_cases j <;> simp [Four.set, Four.get]

theorem Four.get_set {α : Type} (v : Four α) (i j : Fin 4) (a : α) :
    (v.set i a).get j = if j = i then a else v.get j := by
  split
  · next h => subst h; exact v.get_set_self j a
  · next h => exact v.get_set_ne a h

@[simp] theorem Four.set_set {α : Type} (v : Four α) (i : Fin 4) (a b : α) : (v.set i a).set i b = v.set i b := by
  fin_cases i <;> rfl

@[simp] theorem Four.set_get {α : Type} (v : Four α) (i : Fin 4) : v.set i (v.get i) = v := by
  fin_cases i <;> rfl

@[simp] theorem Four.get_build {α : Type} (f : Fin 4 → α) (i : Fin 4) : (Four.build f).get i = f i := by
  fin_cases i <;> rfl

theorem Four.ext_get {α : Type} {v w : Four α} (h : ∀ i, v.get i = w.get i) : v = w := by
  cases v; cases w
  have h0 := h 0; have h1 := h 1; have h2 := h 2; have h3 := h 3
  simp only [Four.get] at h0 h1 h2 h3
  simp_all

@[simp] theorem Four.build_get {α : Type} (v : Four α) : Four.build (fun i => v.get i) = v :=
  Four.ext_get fun i => Four.get_build _ i

end Sys2Proof
end

