-- ==== Sys2Proof/Laws/State.lean ====
section
/-! SUPPORT. One lemma per field per update of the part: what an update leaves as it was, and what it writes. No later proof
unfolds a record update. -/

namespace Sys2Proof.Machine

open Sys2Proof

/-! ### What an update leaves as it was -/

@[simp] theorem modChan_lanes (c : Chan) (f : Channel → Channel) (d : Device) : (modChan c f d).lanes = d.lanes := rfl
@[simp] theorem modChan_groups (c : Chan) (f : Channel → Channel) (d : Device) : (modChan c f d).groups = d.groups := rfl
@[simp] theorem modChan_dwell (c : Chan) (f : Channel → Channel) (d : Device) : (modChan c f d).dwell = d.dwell := rfl
@[simp] theorem modChan_time (c : Chan) (f : Channel → Channel) (d : Device) : (modChan c f d).time = d.time := rfl
@[simp] theorem modChan_preload (c : Chan) (f : Channel → Channel) (d : Device) : (modChan c f d).preload = d.preload := rfl
@[simp] theorem modChan_host (c : Chan) (f : Channel → Channel) (d : Device) : (modChan c f d).host = d.host := rfl
@[simp] theorem modChan_arbiter (c : Chan) (f : Channel → Channel) (d : Device) : (modChan c f d).arbiter = d.arbiter := rfl
@[simp] theorem modChan_events (c : Chan) (f : Channel → Channel) (d : Device) : (modChan c f d).events = d.events := rfl
@[simp] theorem modChan_enables (c : Chan) (f : Channel → Channel) (d : Device) : (modChan c f d).enables = d.enables := rfl
@[simp] theorem modChan_groupRefLoss (c : Chan) (f : Channel → Channel) (d : Device) : (modChan c f d).groupRefLoss = d.groupRefLoss := rfl
@[simp] theorem modChan_ending (c : Chan) (f : Channel → Channel) (d : Device) : (modChan c f d).ending = d.ending := rfl
@[simp] theorem modChan_ram (c : Chan) (f : Channel → Channel) (d : Device) : (modChan c f d).ram = d.ram := rfl
@[simp] theorem modChan_held (c : Chan) (f : Channel → Channel) (d : Device) : (modChan c f d).held = d.held := rfl
@[simp] theorem modChan_epoch (c : Chan) (f : Channel → Channel) (d : Device) : (modChan c f d).epoch = d.epoch := rfl
@[simp] theorem modChan_free (c : Chan) (f : Channel → Channel) (d : Device) : (modChan c f d).free = d.free := rfl
@[simp] theorem modChan_raised (c : Chan) (f : Channel → Channel) (d : Device) : (modChan c f d).raised = d.raised := rfl

@[simp] theorem modCtl_lanes (c : Chan) (f : Controller → Controller) (d : Device) : (modCtl c f d).lanes = d.lanes := rfl
@[simp] theorem modCtl_groups (c : Chan) (f : Controller → Controller) (d : Device) : (modCtl c f d).groups = d.groups := rfl
@[simp] theorem modCtl_dwell (c : Chan) (f : Controller → Controller) (d : Device) : (modCtl c f d).dwell = d.dwell := rfl
@[simp] theorem modCtl_time (c : Chan) (f : Controller → Controller) (d : Device) : (modCtl c f d).time = d.time := rfl
@[simp] theorem modCtl_preload (c : Chan) (f : Controller → Controller) (d : Device) : (modCtl c f d).preload = d.preload := rfl
@[simp] theorem modCtl_host (c : Chan) (f : Controller → Controller) (d : Device) : (modCtl c f d).host = d.host := rfl
@[simp] theorem modCtl_arbiter (c : Chan) (f : Controller → Controller) (d : Device) : (modCtl c f d).arbiter = d.arbiter := rfl
@[simp] theorem modCtl_events (c : Chan) (f : Controller → Controller) (d : Device) : (modCtl c f d).events = d.events := rfl
@[simp] theorem modCtl_enables (c : Chan) (f : Controller → Controller) (d : Device) : (modCtl c f d).enables = d.enables := rfl
@[simp] theorem modCtl_groupRefLoss (c : Chan) (f : Controller → Controller) (d : Device) : (modCtl c f d).groupRefLoss = d.groupRefLoss := rfl
@[simp] theorem modCtl_ending (c : Chan) (f : Controller → Controller) (d : Device) : (modCtl c f d).ending = d.ending := rfl
@[simp] theorem modCtl_ram (c : Chan) (f : Controller → Controller) (d : Device) : (modCtl c f d).ram = d.ram := rfl
@[simp] theorem modCtl_held (c : Chan) (f : Controller → Controller) (d : Device) : (modCtl c f d).held = d.held := rfl
@[simp] theorem modCtl_epoch (c : Chan) (f : Controller → Controller) (d : Device) : (modCtl c f d).epoch = d.epoch := rfl
@[simp] theorem modCtl_free (c : Chan) (f : Controller → Controller) (d : Device) : (modCtl c f d).free = d.free := rfl
@[simp] theorem modCtl_raised (c : Chan) (f : Controller → Controller) (d : Device) : (modCtl c f d).raised = d.raised := rfl

@[simp] theorem raise_lanes (c : Chan) (e : ChanEvent) (d : Device) : (raise c e d).lanes = d.lanes := rfl
@[simp] theorem raise_groups (c : Chan) (e : ChanEvent) (d : Device) : (raise c e d).groups = d.groups := rfl
@[simp] theorem raise_dwell (c : Chan) (e : ChanEvent) (d : Device) : (raise c e d).dwell = d.dwell := rfl
@[simp] theorem raise_time (c : Chan) (e : ChanEvent) (d : Device) : (raise c e d).time = d.time := rfl
@[simp] theorem raise_preload (c : Chan) (e : ChanEvent) (d : Device) : (raise c e d).preload = d.preload := rfl
@[simp] theorem raise_host (c : Chan) (e : ChanEvent) (d : Device) : (raise c e d).host = d.host := rfl
@[simp] theorem raise_arbiter (c : Chan) (e : ChanEvent) (d : Device) : (raise c e d).arbiter = d.arbiter := rfl
@[simp] theorem raise_events (c : Chan) (e : ChanEvent) (d : Device) : (raise c e d).events = d.events := rfl
@[simp] theorem raise_enables (c : Chan) (e : ChanEvent) (d : Device) : (raise c e d).enables = d.enables := rfl
@[simp] theorem raise_groupRefLoss (c : Chan) (e : ChanEvent) (d : Device) : (raise c e d).groupRefLoss = d.groupRefLoss := rfl
@[simp] theorem raise_ending (c : Chan) (e : ChanEvent) (d : Device) : (raise c e d).ending = d.ending := rfl
@[simp] theorem raise_ram (c : Chan) (e : ChanEvent) (d : Device) : (raise c e d).ram = d.ram := rfl
@[simp] theorem raise_held (c : Chan) (e : ChanEvent) (d : Device) : (raise c e d).held = d.held := rfl
@[simp] theorem raise_epoch (c : Chan) (e : ChanEvent) (d : Device) : (raise c e d).epoch = d.epoch := rfl
@[simp] theorem raise_free (c : Chan) (e : ChanEvent) (d : Device) : (raise c e d).free = d.free := rfl
@[simp] theorem raise_raised (c : Chan) (e : ChanEvent) (d : Device) : (raise c e d).raised = d.raised := rfl

@[simp] theorem modGroup_chans (g : Grp) (f : Group → Group) (d : Device) : (modGroup g f d).chans = d.chans := rfl
@[simp] theorem modGroup_lanes (g : Grp) (f : Group → Group) (d : Device) : (modGroup g f d).lanes = d.lanes := rfl
@[simp] theorem modGroup_dwell (g : Grp) (f : Group → Group) (d : Device) : (modGroup g f d).dwell = d.dwell := rfl
@[simp] theorem modGroup_time (g : Grp) (f : Group → Group) (d : Device) : (modGroup g f d).time = d.time := rfl
@[simp] theorem modGroup_preload (g : Grp) (f : Group → Group) (d : Device) : (modGroup g f d).preload = d.preload := rfl
@[simp] theorem modGroup_host (g : Grp) (f : Group → Group) (d : Device) : (modGroup g f d).host = d.host := rfl
@[simp] theorem modGroup_arbiter (g : Grp) (f : Group → Group) (d : Device) : (modGroup g f d).arbiter = d.arbiter := rfl
@[simp] theorem modGroup_events (g : Grp) (f : Group → Group) (d : Device) : (modGroup g f d).events = d.events := rfl
@[simp] theorem modGroup_enables (g : Grp) (f : Group → Group) (d : Device) : (modGroup g f d).enables = d.enables := rfl
@[simp] theorem modGroup_groupRefLoss (g : Grp) (f : Group → Group) (d : Device) : (modGroup g f d).groupRefLoss = d.groupRefLoss := rfl
@[simp] theorem modGroup_ending (g : Grp) (f : Group → Group) (d : Device) : (modGroup g f d).ending = d.ending := rfl
@[simp] theorem modGroup_ram (g : Grp) (f : Group → Group) (d : Device) : (modGroup g f d).ram = d.ram := rfl
@[simp] theorem modGroup_held (g : Grp) (f : Group → Group) (d : Device) : (modGroup g f d).held = d.held := rfl
@[simp] theorem modGroup_epoch (g : Grp) (f : Group → Group) (d : Device) : (modGroup g f d).epoch = d.epoch := rfl
@[simp] theorem modGroup_free (g : Grp) (f : Group → Group) (d : Device) : (modGroup g f d).free = d.free := rfl
@[simp] theorem modGroup_raised (g : Grp) (f : Group → Group) (d : Device) : (modGroup g f d).raised = d.raised := rfl

@[simp] theorem served_chans (r : Requester) (d : Device) : (served r d).chans = d.chans := rfl
@[simp] theorem served_lanes (r : Requester) (d : Device) : (served r d).lanes = d.lanes := rfl
@[simp] theorem served_groups (r : Requester) (d : Device) : (served r d).groups = d.groups := rfl
@[simp] theorem served_dwell (r : Requester) (d : Device) : (served r d).dwell = d.dwell := rfl
@[simp] theorem served_time (r : Requester) (d : Device) : (served r d).time = d.time := rfl
@[simp] theorem served_preload (r : Requester) (d : Device) : (served r d).preload = d.preload := rfl
@[simp] theorem served_host (r : Requester) (d : Device) : (served r d).host = d.host := rfl
@[simp] theorem served_events (r : Requester) (d : Device) : (served r d).events = d.events := rfl
@[simp] theorem served_enables (r : Requester) (d : Device) : (served r d).enables = d.enables := rfl
@[simp] theorem served_groupRefLoss (r : Requester) (d : Device) : (served r d).groupRefLoss = d.groupRefLoss := rfl
@[simp] theorem served_ending (r : Requester) (d : Device) : (served r d).ending = d.ending := rfl
@[simp] theorem served_ram (r : Requester) (d : Device) : (served r d).ram = d.ram := rfl
@[simp] theorem served_held (r : Requester) (d : Device) : (served r d).held = d.held := rfl
@[simp] theorem served_epoch (r : Requester) (d : Device) : (served r d).epoch = d.epoch := rfl
@[simp] theorem served_free (r : Requester) (d : Device) : (served r d).free = d.free := rfl
@[simp] theorem served_raised (r : Requester) (d : Device) : (served r d).raised = d.raised := rfl

@[simp] theorem takeTurn_chans (c : Chan) (d : Device) : (takeTurn c d).chans = d.chans := rfl
@[simp] theorem takeTurn_lanes (c : Chan) (d : Device) : (takeTurn c d).lanes = d.lanes := rfl
@[simp] theorem takeTurn_groups (c : Chan) (d : Device) : (takeTurn c d).groups = d.groups := rfl
@[simp] theorem takeTurn_dwell (c : Chan) (d : Device) : (takeTurn c d).dwell = d.dwell := rfl
@[simp] theorem takeTurn_time (c : Chan) (d : Device) : (takeTurn c d).time = d.time := rfl
@[simp] theorem takeTurn_preload (c : Chan) (d : Device) : (takeTurn c d).preload = d.preload := rfl
@[simp] theorem takeTurn_host (c : Chan) (d : Device) : (takeTurn c d).host = d.host := rfl
@[simp] theorem takeTurn_events (c : Chan) (d : Device) : (takeTurn c d).events = d.events := rfl
@[simp] theorem takeTurn_enables (c : Chan) (d : Device) : (takeTurn c d).enables = d.enables := rfl
@[simp] theorem takeTurn_groupRefLoss (c : Chan) (d : Device) : (takeTurn c d).groupRefLoss = d.groupRefLoss := rfl
@[simp] theorem takeTurn_ending (c : Chan) (d : Device) : (takeTurn c d).ending = d.ending := rfl
@[simp] theorem takeTurn_ram (c : Chan) (d : Device) : (takeTurn c d).ram = d.ram := rfl
@[simp] theorem takeTurn_held (c : Chan) (d : Device) : (takeTurn c d).held = d.held := rfl
@[simp] theorem takeTurn_epoch (c : Chan) (d : Device) : (takeTurn c d).epoch = d.epoch := rfl
@[simp] theorem takeTurn_free (c : Chan) (d : Device) : (takeTurn c d).free = d.free := rfl
@[simp] theorem takeTurn_raised (c : Chan) (d : Device) : (takeTurn c d).raised = d.raised := rfl

@[simp] theorem servedGroup_chans (g : Grp) (d : Device) : (servedGroup g d).chans = d.chans := rfl
@[simp] theorem servedGroup_lanes (g : Grp) (d : Device) : (servedGroup g d).lanes = d.lanes := rfl
@[simp] theorem servedGroup_groups (g : Grp) (d : Device) : (servedGroup g d).groups = d.groups := rfl
@[simp] theorem servedGroup_dwell (g : Grp) (d : Device) : (servedGroup g d).dwell = d.dwell := rfl
@[simp] theorem servedGroup_time (g : Grp) (d : Device) : (servedGroup g d).time = d.time := rfl
@[simp] theorem servedGroup_preload (g : Grp) (d : Device) : (servedGroup g d).preload = d.preload := rfl
@[simp] theorem servedGroup_host (g : Grp) (d : Device) : (servedGroup g d).host = d.host := rfl
@[simp] theorem servedGroup_events (g : Grp) (d : Device) : (servedGroup g d).events = d.events := rfl
@[simp] theorem servedGroup_enables (g : Grp) (d : Device) : (servedGroup g d).enables = d.enables := rfl
@[simp] theorem servedGroup_groupRefLoss (g : Grp) (d : Device) : (servedGroup g d).groupRefLoss = d.groupRefLoss := rfl
@[simp] theorem servedGroup_ending (g : Grp) (d : Device) : (servedGroup g d).ending = d.ending := rfl
@[simp] theorem servedGroup_ram (g : Grp) (d : Device) : (servedGroup g d).ram = d.ram := rfl
@[simp] theorem servedGroup_held (g : Grp) (d : Device) : (servedGroup g d).held = d.held := rfl
@[simp] theorem servedGroup_epoch (g : Grp) (d : Device) : (servedGroup g d).epoch = d.epoch := rfl
@[simp] theorem servedGroup_free (g : Grp) (d : Device) : (servedGroup g d).free = d.free := rfl
@[simp] theorem servedGroup_raised (g : Grp) (d : Device) : (servedGroup g d).raised = d.raised := rfl

@[simp] theorem devRaise_chans (e : DevEvent) (d : Device) : (devRaise e d).chans = d.chans := rfl
@[simp] theorem devRaise_lanes (e : DevEvent) (d : Device) : (devRaise e d).lanes = d.lanes := rfl
@[simp] theorem devRaise_groups (e : DevEvent) (d : Device) : (devRaise e d).groups = d.groups := rfl
@[simp] theorem devRaise_dwell (e : DevEvent) (d : Device) : (devRaise e d).dwell = d.dwell := rfl
@[simp] theorem devRaise_time (e : DevEvent) (d : Device) : (devRaise e d).time = d.time := rfl
@[simp] theorem devRaise_preload (e : DevEvent) (d : Device) : (devRaise e d).preload = d.preload := rfl
@[simp] theorem devRaise_host (e : DevEvent) (d : Device) : (devRaise e d).host = d.host := rfl
@[simp] theorem devRaise_arbiter (e : DevEvent) (d : Device) : (devRaise e d).arbiter = d.arbiter := rfl
@[simp] theorem devRaise_enables (e : DevEvent) (d : Device) : (devRaise e d).enables = d.enables := rfl
@[simp] theorem devRaise_groupRefLoss (e : DevEvent) (d : Device) : (devRaise e d).groupRefLoss = d.groupRefLoss := rfl
@[simp] theorem devRaise_ending (e : DevEvent) (d : Device) : (devRaise e d).ending = d.ending := rfl
@[simp] theorem devRaise_ram (e : DevEvent) (d : Device) : (devRaise e d).ram = d.ram := rfl
@[simp] theorem devRaise_held (e : DevEvent) (d : Device) : (devRaise e d).held = d.held := rfl
@[simp] theorem devRaise_epoch (e : DevEvent) (d : Device) : (devRaise e d).epoch = d.epoch := rfl
@[simp] theorem devRaise_free (e : DevEvent) (d : Device) : (devRaise e d).free = d.free := rfl
@[simp] theorem devRaise_events (e : DevEvent) (d : Device) : (devRaise e d).events = d.events := rfl
@[simp] theorem devRaise_raised (e : DevEvent) (d : Device) : (devRaise e d).raised = d.raised ++ [e] := rfl

@[simp] theorem badWrite_chans (w : WriteFault) (o : Nat) (d : Device) : (badWrite w o d).chans = d.chans := rfl
@[simp] theorem badWrite_lanes (w : WriteFault) (o : Nat) (d : Device) : (badWrite w o d).lanes = d.lanes := rfl
@[simp] theorem badWrite_groups (w : WriteFault) (o : Nat) (d : Device) : (badWrite w o d).groups = d.groups := rfl
@[simp] theorem badWrite_dwell (w : WriteFault) (o : Nat) (d : Device) : (badWrite w o d).dwell = d.dwell := rfl
@[simp] theorem badWrite_time (w : WriteFault) (o : Nat) (d : Device) : (badWrite w o d).time = d.time := rfl
@[simp] theorem badWrite_preload (w : WriteFault) (o : Nat) (d : Device) : (badWrite w o d).preload = d.preload := rfl
@[simp] theorem badWrite_arbiter (w : WriteFault) (o : Nat) (d : Device) : (badWrite w o d).arbiter = d.arbiter := rfl
@[simp] theorem badWrite_enables (w : WriteFault) (o : Nat) (d : Device) : (badWrite w o d).enables = d.enables := rfl
@[simp] theorem badWrite_groupRefLoss (w : WriteFault) (o : Nat) (d : Device) : (badWrite w o d).groupRefLoss = d.groupRefLoss := rfl
@[simp] theorem badWrite_ending (w : WriteFault) (o : Nat) (d : Device) : (badWrite w o d).ending = d.ending := rfl
@[simp] theorem badWrite_ram (w : WriteFault) (o : Nat) (d : Device) : (badWrite w o d).ram = d.ram := rfl
@[simp] theorem badWrite_held (w : WriteFault) (o : Nat) (d : Device) : (badWrite w o d).held = d.held := rfl
@[simp] theorem badWrite_epoch (w : WriteFault) (o : Nat) (d : Device) : (badWrite w o d).epoch = d.epoch := rfl
@[simp] theorem badWrite_free (w : WriteFault) (o : Nat) (d : Device) : (badWrite w o d).free = d.free := rfl
@[simp] theorem badWrite_events (w : WriteFault) (o : Nat) (d : Device) : (badWrite w o d).events = d.events := rfl
@[simp] theorem badWrite_raised (w : WriteFault) (o : Nat) (d : Device) : (badWrite w o d).raised = d.raised ++ [.badWrite] := rfl

@[simp] theorem modPreload_chans (f : Preload → Preload) (d : Device) : (modPreload f d).chans = d.chans := rfl
@[simp] theorem modPreload_lanes (f : Preload → Preload) (d : Device) : (modPreload f d).lanes = d.lanes := rfl
@[simp] theorem modPreload_groups (f : Preload → Preload) (d : Device) : (modPreload f d).groups = d.groups := rfl
@[simp] theorem modPreload_dwell (f : Preload → Preload) (d : Device) : (modPreload f d).dwell = d.dwell := rfl
@[simp] theorem modPreload_time (f : Preload → Preload) (d : Device) : (modPreload f d).time = d.time := rfl
@[simp] theorem modPreload_host (f : Preload → Preload) (d : Device) : (modPreload f d).host = d.host := rfl
@[simp] theorem modPreload_arbiter (f : Preload → Preload) (d : Device) : (modPreload f d).arbiter = d.arbiter := rfl
@[simp] theorem modPreload_events (f : Preload → Preload) (d : Device) : (modPreload f d).events = d.events := rfl
@[simp] theorem modPreload_enables (f : Preload → Preload) (d : Device) : (modPreload f d).enables = d.enables := rfl
@[simp] theorem modPreload_groupRefLoss (f : Preload → Preload) (d : Device) : (modPreload f d).groupRefLoss = d.groupRefLoss := rfl
@[simp] theorem modPreload_ending (f : Preload → Preload) (d : Device) : (modPreload f d).ending = d.ending := rfl
@[simp] theorem modPreload_ram (f : Preload → Preload) (d : Device) : (modPreload f d).ram = d.ram := rfl
@[simp] theorem modPreload_held (f : Preload → Preload) (d : Device) : (modPreload f d).held = d.held := rfl
@[simp] theorem modPreload_epoch (f : Preload → Preload) (d : Device) : (modPreload f d).epoch = d.epoch := rfl
@[simp] theorem modPreload_free (f : Preload → Preload) (d : Device) : (modPreload f d).free = d.free := rfl
@[simp] theorem modPreload_raised (f : Preload → Preload) (d : Device) : (modPreload f d).raised = d.raised := rfl

@[simp] theorem writeWord_chans (a : Nat) (v : BusWord) (d : Device) : (writeWord a v d).chans = d.chans := rfl
@[simp] theorem writeWord_lanes (a : Nat) (v : BusWord) (d : Device) : (writeWord a v d).lanes = d.lanes := rfl
@[simp] theorem writeWord_groups (a : Nat) (v : BusWord) (d : Device) : (writeWord a v d).groups = d.groups := rfl
@[simp] theorem writeWord_dwell (a : Nat) (v : BusWord) (d : Device) : (writeWord a v d).dwell = d.dwell := rfl
@[simp] theorem writeWord_time (a : Nat) (v : BusWord) (d : Device) : (writeWord a v d).time = d.time := rfl
@[simp] theorem writeWord_preload (a : Nat) (v : BusWord) (d : Device) : (writeWord a v d).preload = d.preload := rfl
@[simp] theorem writeWord_host (a : Nat) (v : BusWord) (d : Device) : (writeWord a v d).host = d.host := rfl
@[simp] theorem writeWord_arbiter (a : Nat) (v : BusWord) (d : Device) : (writeWord a v d).arbiter = d.arbiter := rfl
@[simp] theorem writeWord_events (a : Nat) (v : BusWord) (d : Device) : (writeWord a v d).events = d.events := rfl
@[simp] theorem writeWord_enables (a : Nat) (v : BusWord) (d : Device) : (writeWord a v d).enables = d.enables := rfl
@[simp] theorem writeWord_groupRefLoss (a : Nat) (v : BusWord) (d : Device) : (writeWord a v d).groupRefLoss = d.groupRefLoss := rfl
@[simp] theorem writeWord_ending (a : Nat) (v : BusWord) (d : Device) : (writeWord a v d).ending = d.ending := rfl
@[simp] theorem writeWord_held (a : Nat) (v : BusWord) (d : Device) : (writeWord a v d).held = d.held := rfl
@[simp] theorem writeWord_epoch (a : Nat) (v : BusWord) (d : Device) : (writeWord a v d).epoch = d.epoch := rfl
@[simp] theorem writeWord_free (a : Nat) (v : BusWord) (d : Device) : (writeWord a v d).free = d.free := rfl
@[simp] theorem writeWord_raised (a : Nat) (v : BusWord) (d : Device) : (writeWord a v d).raised = d.raised := rfl
/-! ### Reads after an update -/

@[simp] theorem modChan_chan_self (c : Chan) (f : Channel → Channel) (d : Device) : (modChan c f d).chan c = f (d.chan c) := by
  simp [modChan, Device.chan]

theorem modChan_chan (c b : Chan) (f : Channel → Channel) (d : Device) :
    (modChan c f d).chan b = if b = c then f (d.chan c) else d.chan b := by
  simp only [modChan, Device.chan, Eight.get_set]

theorem modChan_chan_ne {c b : Chan} (f : Channel → Channel) (d : Device) (h : b ≠ c) :
    (modChan c f d).chan b = d.chan b := by
  simp [modChan_chan, h]

@[simp] theorem modCtl_ctl_self (c : Chan) (f : Controller → Controller) (d : Device) :
    (modCtl c f d).ctl c = f (d.ctl c) := by
  simp [modCtl, modChan, Device.ctl]

theorem modCtl_ctl (c b : Chan) (f : Controller → Controller) (d : Device) :
    (modCtl c f d).ctl b = if b = c then f (d.ctl c) else d.ctl b := by
  simp only [modCtl, modChan, Device.ctl, Eight.get_set]
  split <;> rfl

theorem modChan_ctl (c b : Chan) (f : Channel → Channel) (d : Device) :
    (modChan c f d).ctl b = if b = c then (f (d.chan c)).ctl else d.ctl b := by
  simp only [modChan, Device.ctl, Device.chan, Eight.get_set]
  split <;> rfl

@[simp] theorem modChan_ctl_self (c : Chan) (f : Channel → Channel) (d : Device) :
    (modChan c f d).ctl c = (f (d.chan c)).ctl := by
  simp [modChan_ctl]

theorem modCtl_chan (c b : Chan) (f : Controller → Controller) (d : Device) :
    (modCtl c f d).chan b = if b = c then { d.chan c with ctl := f (d.ctl c) } else d.chan b := by
  simp only [modCtl, modChan, Device.ctl, Device.chan, Eight.get_set]

@[simp] theorem modCtl_chan_self (c : Chan) (f : Controller → Controller) (d : Device) :
    (modCtl c f d).chan c = { d.chan c with ctl := f (d.ctl c) } := by
  simp [modCtl_chan]

@[simp] theorem raise_ctl (c b : Chan) (e : ChanEvent) (d : Device) : (raise c e d).ctl b = d.ctl b := by
  simp only [raise, modChan_ctl]
  split
  · next h => subst h; rfl
  · rfl

theorem raise_chan (c b : Chan) (e : ChanEvent) (d : Device) :
    (raise c e d).chan b = if b = c then chanRaise e (d.chan c) else d.chan b := by
  simp only [raise, modChan_chan]

@[simp] theorem raise_chan_self (c : Chan) (e : ChanEvent) (d : Device) : (raise c e d).chan c = chanRaise e (d.chan c) := by
  simp [raise_chan]

/-- The two ways to read a controller agree. -/
theorem Device.ctl_eq (d : Device) (c : Chan) : d.ctl c = (d.chan c).ctl := rfl

@[simp] theorem modGroup_group_self (g : Grp) (f : Group → Group) (d : Device) :
    (modGroup g f d).group g = f (d.group g) := by
  simp [modGroup, Device.group]

theorem modGroup_group (g h : Grp) (f : Group → Group) (d : Device) :
    (modGroup g f d).group h = if h = g then f (d.group g) else d.group h := by
  simp only [modGroup, Device.group, Four.get_set]

@[simp] theorem modGroup_ctl (g : Grp) (f : Group → Group) (d : Device) (c : Chan) : (modGroup g f d).ctl c = d.ctl c := rfl

@[simp] theorem modGroup_chan (g : Grp) (f : Group → Group) (d : Device) (c : Chan) : (modGroup g f d).chan c = d.chan c := rfl

@[simp] theorem modChan_group (c : Chan) (f : Channel → Channel) (d : Device) (g : Grp) :
    (modChan c f d).group g = d.group g := rfl

@[simp] theorem modCtl_group (c : Chan) (f : Controller → Controller) (d : Device) (g : Grp) :
    (modCtl c f d).group g = d.group g := rfl

@[simp] theorem raise_group (c : Chan) (e : ChanEvent) (d : Device) (g : Grp) : (raise c e d).group g = d.group g := rfl

@[simp] theorem served_ctl (r : Requester) (d : Device) (c : Chan) : (served r d).ctl c = d.ctl c := rfl
@[simp] theorem takeTurn_ctl (c : Chan) (d : Device) (b : Chan) : (takeTurn c d).ctl b = d.ctl b := rfl

@[simp] theorem served_chan (r : Requester) (d : Device) (c : Chan) : (served r d).chan c = d.chan c := rfl
@[simp] theorem takeTurn_chan (c : Chan) (d : Device) (b : Chan) : (takeTurn c d).chan b = d.chan b := rfl

@[simp] theorem served_group (r : Requester) (d : Device) (g : Grp) : (served r d).group g = d.group g := rfl
@[simp] theorem takeTurn_group (c : Chan) (d : Device) (g : Grp) : (takeTurn c d).group g = d.group g := rfl

@[simp] theorem servedGroup_ctl (g : Grp) (d : Device) (c : Chan) : (servedGroup g d).ctl c = d.ctl c := rfl

@[simp] theorem servedGroup_group (g h : Grp) (d : Device) : (servedGroup g d).group h = d.group h := rfl

@[simp] theorem devRaise_ctl (e : DevEvent) (d : Device) (c : Chan) : (devRaise e d).ctl c = d.ctl c := rfl

@[simp] theorem devRaise_chan (e : DevEvent) (d : Device) (c : Chan) : (devRaise e d).chan c = d.chan c := rfl

@[simp] theorem devRaise_group (e : DevEvent) (d : Device) (g : Grp) : (devRaise e d).group g = d.group g := rfl

@[simp] theorem writeWord_ctl (a : Nat) (v : BusWord) (d : Device) (c : Chan) : (writeWord a v d).ctl c = d.ctl c := rfl

@[simp] theorem writeWord_chan (a : Nat) (v : BusWord) (d : Device) (c : Chan) : (writeWord a v d).chan c = d.chan c := rfl

@[simp] theorem writeWord_group (a : Nat) (v : BusWord) (d : Device) (g : Grp) : (writeWord a v d).group g = d.group g := rfl

/-! ### A raise waits for the Event Unit and changes nothing else (R148, R149) -/

@[simp] theorem chanRaise_config (e : ChanEvent) (k : Channel) : (chanRaise e k).config = k.config := rfl
@[simp] theorem chanRaise_gen (e : ChanEvent) (k : Channel) : (chanRaise e k).gen = k.gen := rfl
@[simp] theorem chanRaise_chk (e : ChanEvent) (k : Channel) : (chanRaise e k).chk = k.chk := rfl
@[simp] theorem chanRaise_ctl (e : ChanEvent) (k : Channel) : (chanRaise e k).ctl = k.ctl := rfl
@[simp] theorem chanRaise_front (e : ChanEvent) (k : Channel) : (chanRaise e k).front = k.front := rfl
@[simp] theorem chanRaise_events (e : ChanEvent) (k : Channel) : (chanRaise e k).events = k.events := rfl
@[simp] theorem chanRaise_enables (e : ChanEvent) (k : Channel) : (chanRaise e k).enables = k.enables := rfl
@[simp] theorem chanRaise_snap (e : ChanEvent) (k : Channel) : (chanRaise e k).snap = k.snap := rfl
@[simp] theorem chanRaise_raised (e : ChanEvent) (k : Channel) : (chanRaise e k).raised = k.raised ++ [e] := rfl
@[simp] theorem chanRaiseAll_ctl (es : List ChanEvent) (k : Channel) : (chanRaiseAll es k).ctl = k.ctl := rfl
@[simp] theorem chanRaiseAll_chk (es : List ChanEvent) (k : Channel) : (chanRaiseAll es k).chk = k.chk := rfl
@[simp] theorem chanRaiseAll_events (es : List ChanEvent) (k : Channel) : (chanRaiseAll es k).events = k.events := rfl
@[simp] theorem chanRaiseAll_raised (es : List ChanEvent) (k : Channel) : (chanRaiseAll es k).raised = k.raised ++ es := rfl

/-! ### The Event Unit takes raises in order, and changes nothing but the set (R149, R156) -/

@[simp] theorem takeRaises_ctl (n : Nat) (k : Channel) : (takeRaises n k).ctl = k.ctl := rfl
@[simp] theorem takeRaises_chk (n : Nat) (k : Channel) : (takeRaises n k).chk = k.chk := rfl
@[simp] theorem takeRaises_front (n : Nat) (k : Channel) : (takeRaises n k).front = k.front := rfl
@[simp] theorem takeRaises_snap (n : Nat) (k : Channel) : (takeRaises n k).snap = k.snap := rfl
@[simp] theorem takeRaises_raised (n : Nat) (k : Channel) : (takeRaises n k).raised = k.raised.drop n := rfl
@[simp] theorem devTakeRaises_chans (n : Nat) (d : Device) : (devTakeRaises n d).chans = d.chans := rfl
@[simp] theorem devTakeRaises_ram (n : Nat) (d : Device) : (devTakeRaises n d).ram = d.ram := rfl
@[simp] theorem devTakeRaises_raised (n : Nat) (d : Device) : (devTakeRaises n d).raised = d.raised.drop n := rfl

theorem takeRaises_one (k : Channel) (e : ChanEvent) (l : List ChanEvent) (h : k.raised = e :: l) :
    takeRaises 1 k = { k with events := setBit k.events (chanEventBit e), raised := l } := by
  simp [takeRaises, h]

theorem devTakeRaises_one (d : Device) (e : DevEvent) (l : List DevEvent) (h : d.raised = e :: l) :
    devTakeRaises 1 d = { d with events := setBit d.events (devEventBit e), raised := l } := by
  simp [devTakeRaises, h]

/-! ### Two updates of one channel -/

/-- Two changes of one channel are one. -/
theorem modChan_modChan (c : Chan) (f g : Channel → Channel) (d : Device) :
    modChan c g (modChan c f d) = modChan c (fun k => g (f k)) d := by
  simp [modChan]

/-- Changes of different channels commute. -/
theorem modChan_comm {b c : Chan} (f g : Channel → Channel) (d : Device) (h : b ≠ c) :
    modChan c g (modChan b f d) = modChan b f (modChan c g d) := by
  simp only [modChan, Eight.get_set_ne _ _ h, Eight.get_set_ne _ _ h.symm, Eight.set_comm _ _ _ h]

/-! ### Running a meaning -/

@[simp] theorem State.act_eq (s : State) (f : Device → Device) : s.act f = .next { s with dev := f s.dev } := rfl

theorem happening_held {f : Device → Device} {d : Device} (h : d.held = true) : happening f d = d := by simp [happening, h]

theorem happening_running {f : Device → Device} {d : Device} (h : d.held = false) : happening f d = f d := by
  simp [happening, h]

theorem hostAccess_running {a : Access} {f : Device → Device} {d : Device} (h : d.held = false) :
    hostAccess a f d = f d := by
  simp [hostAccess, h]

end Sys2Proof.Machine
end

