-- ==== Sys2Proof/Laws/Channels.lean ====
section
/-! SUPPORT. Changes of several channels: a happening at every channel, at the channels of a mask or at a group's members is one
change of the channel table, and a checker's step at a channel is one of the changes the statements name. -/

namespace Sys2Proof.Machine

open Sys2Proof

theorem modChan_same (c : Chan) (d : Device) : modChan c (fun k => k) d = d := by simp [modChan]

theorem ite_modChan (b : Prop) [Decidable b] (c : Chan) (f : Channel → Channel) (d : Device) :
    (if b then modChan c f d else d) = modChan c (fun k => if b then f k else k) d := by
  split
  · rfl
  · exact (modChan_same c d).symm

theorem forChans_modChan (f : Chan → Channel → Channel) (d : Device) : forChans (fun c => modChan c (f c)) d = mapChans f d := rfl

theorem foldl_congr_inv {α β : Type} (P : β → Prop) (f g : β → α → β) (hfg : ∀ b a, P b → f b a = g b a) (hg : ∀ b a, P b → P (g b a))
    (l : List α) (b : β) (hb : P b) : l.foldl f b = l.foldl g b := by
  induction l generalizing b with
  | nil => rfl
  | cons a l ih => simp only [List.foldl_cons]; rw [hfg b a hb]; exact ih _ (hg b a hb)

theorem forChans_inv (P : Device → Prop) (G : Chan → Device → Device) (F : Chan → Channel → Channel)
    (hG : ∀ c d, P d → G c d = modChan c (F c) d) (hP : ∀ c d, P d → P (modChan c (F c) d)) (d : Device) (h : P d) :
    forChans G d = mapChans F d := by
  rw [← forChans_modChan]
  exact foldl_congr_inv P _ _ (fun d c h => hG c d h) (fun d c h => hP c d h) _ _ h

theorem forMask_eq (m : BitVec 8) (G : Chan → Device → Device) (d : Device) :
    forMask m G d = forChans (fun c d => if inMask m c then G c d else d) d := rfl

theorem forMask_modChan (m : BitVec 8) (f : Chan → Channel → Channel) (d : Device) :
    forMask m (fun c => modChan c (f c)) d = mapChans (fun c k => if inMask m c then f c k else k) d := by
  rw [forMask_eq]
  refine forChans_inv (fun _ => True) _ _ (fun c d _ => ?_) (fun _ _ _ => trivial) d trivial
  exact ite_modChan _ c (f c) d

theorem forMask_inv (P : Device → Prop) (m : BitVec 8) (G : Chan → Device → Device) (F : Chan → Channel → Channel)
    (hG : ∀ c d, P d → inMask m c = true → G c d = modChan c (F c) d)
    (hP : ∀ c d, P d → inMask m c = true → P (modChan c (F c) d)) (d : Device) (h : P d) :
    forMask m G d = mapChans (fun c k => if inMask m c then F c k else k) d := by
  rw [forMask_eq]
  refine forChans_inv P _ _ (fun c d h => ?_) (fun c d h => ?_) d h
  · split
    · next hm => rw [hG c d h hm]
    · exact (modChan_same c d).symm
  · by_cases hm : inMask m c = true
    · simp only [hm, if_true]; exact hP c d h hm
    · simp only [hm]; rw [show (fun k : Channel => if false = true then F c k else k) = fun k => k from rfl, modChan_same]; exact h

theorem mapChans_chan (f : Chan → Channel → Channel) (d : Device) (c : Chan) : (mapChans f d).chan c = f c (d.chan c) := by
  simp [mapChans, Device.chan]

theorem mapChans_congr {f g : Chan → Channel → Channel} {d : Device} (h : ∀ c, f c (d.chan c) = g c (d.chan c)) : mapChans f d = mapChans g d := by
  simp only [mapChans, h]

theorem mapChans_mapChans (f g : Chan → Channel → Channel) (d : Device) : mapChans g (mapChans f d) = mapChans (fun c k => g c (f c k)) d := by
  simp only [mapChans, Device.chan, Eight.get_build]

theorem modChan_congr {c : Chan} {f g : Channel → Channel} {d : Device} (h : f (d.chan c) = g (d.chan c)) : modChan c f d = modChan c g d := by
  simp only [modChan]; unfold Device.chan at h; rw [h]

theorem modChan_eq_mapChans (c : Chan) (f : Channel → Channel) (d : Device) : modChan c f d = mapChans (fun b k => if b = c then f k else k) d := by
  simp only [modChan, mapChans, Device.chan]
  congr 1
  apply Eight.ext_get
  intro i
  rw [Eight.get_set, Eight.get_build]
  split <;> simp_all

theorem atMembers_eq (g : Grp) (f : Controller → Controller) (d : Device) :
    atMembers g f d = mapChans (fun c k => if inMask (d.group g).members c = true ∧ k.ctl.group = some g then { k with ctl := f k.ctl } else k) d := by
  unfold atMembers
  rw [forMask_eq, forChans_inv (fun _ => True) _ (fun c k => if inMask (d.group g).members c = true ∧ k.ctl.group = some g then { k with ctl := f k.ctl } else k)]
  · intro c e _
    by_cases h1 : inMask (d.group g).members c = true
    · simp only [h1, if_true, true_and]
      by_cases h2 : (e.ctl c).group = some g
      · have h2' : (e.chan c).ctl.group = some g := h2
        simp only [takesPart, h2, decide_true, if_true, modCtl]
        exact modChan_congr (by simp [h2'])
      · have h2' : ¬ (e.chan c).ctl.group = some g := h2
        simp only [takesPart, h2, decide_false, Bool.false_eq_true, if_false]
        rw [← modChan_same c e]; rw [modChan_modChan]; exact modChan_congr (by simp [h2'])
    · simp [h1, modChan_same]
  · intros; trivial
  · trivial

/-- What `atChecker` makes of a checker step at the channel. -/
def stepAt (f : Checker → CheckerStep) (k : Channel) : Channel :=
  chanRaiseAll (f k.chk).events { k with chk := (f k.chk).chk, ctl := { k.ctl with inbox := k.ctl.inbox ++ (f k.chk).handed } }

theorem atChecker_eq (c : Chan) (f : Checker → CheckerStep) (d : Device) : atChecker c f d = modChan c (stepAt f) d := rfl

theorem stepAt_report (p : Bool) (k : Channel) : stepAt (chkReport p) k = hearReport p k := by
  cases hs : k.chk.state <;> cases p <;> simp [stepAt, chkReport, hearReport, hs, chanRaiseAll, chkStay, chkLoseSignal]

theorem stepAt_restart (k : Channel) : stepAt chkRestart k = restartSearch k := by
  cases hs : k.chk.state <;> simp [stepAt, chkRestart, restartSearch, hs, chanRaiseAll, chkStay, chkUnlock]

theorem stepAt_break (p : Bool) (k : Channel) : stepAt (chkBreak p) k = streamBreak p k := by
  cases hs : k.chk.state <;> cases p <;> simp [stepAt, chkBreak, streamBreak, restartSearch, hearReport, hs, chanRaiseAll, chkStay, chkLoseSignal, chkUnlock]

theorem Device.ctl_chan (d : Device) (c : Chan) : (d.ctl c) = (d.chan c).ctl := rfl

theorem stepAt_state (f : Checker → CheckerStep) (k : Channel) : (stepAt f k).ctl.state = k.ctl.state := by
  simp [stepAt]

theorem restartSearch_state (k : Channel) : (restartSearch k).ctl.state = k.ctl.state := by
  rw [← stepAt_restart, stepAt_state]

/-- The lanes, the Timebase and the channel states of `d` are those of `s`. -/
def SameLanes (s d : Device) : Prop := d.lanes = s.lanes ∧ d.time = s.time ∧ ∀ b, (d.ctl b).state = (s.ctl b).state

theorem SameLanes.modChan {s d : Device} (h : SameLanes s d) (c : Chan) (f : Channel → Channel) (hf : ∀ k, (f k).ctl.state = k.ctl.state) : SameLanes s (modChan c f d) := by
  refine ⟨h.1, h.2.1, fun b => ?_⟩
  rw [modChan_ctl]
  split
  · next hb => subst hb; rw [hf]; exact h.2.2 b
  · exact h.2.2 b

theorem SameLanes.report {s d : Device} (h : SameLanes s d) (r : Chan) : laneReport d r = laneReport s r := by
  unfold laneReport; rw [h.1, h.2.2]

end Sys2Proof.Machine
end

