-- ==== Sys2Proof/Laws/Groups.lean ====
section
/-! SUPPORT. Groups and conditions: a channel's group and the group conditions of a command as the manual states them, the config
check and the argument check. -/

namespace Sys2Proof.Machine

open Sys2Proof

theorem grp_cases (g : Grp) : g = 0 ∨ g = 1 ∨ g = 2 ∨ g = 3 := by
  fin_cases g <;> simp

theorem any_groups (p : Grp → Bool) : allGroups.any p = true ↔ ∃ g, p g = true := by
  simp only [allGroups, List.any_cons, List.any_nil, Bool.or_false, Bool.or_eq_true]
  constructor
  · rintro (h|h|h|h) <;> exact ⟨_, h⟩
  · rintro ⟨g, h⟩
    rcases grp_cases g with rfl|rfl|rfl|rfl <;> simp [h]

theorem groupOf_none {d : Device} {c : Chan} : groupOf d c = none ↔ ∀ g, inMask (d.group g).members c = false := by
  simp only [groupOf, allGroups, List.find?_eq_none]
  constructor
  · intro h g
    rcases grp_cases g with rfl|rfl|rfl|rfl <;> simpa using h _ (by simp)
  · intro h g _; simp [h g]

theorem groupOf_some {d : Device} {c : Chan} {g : Grp} (h : groupOf d c = some g) : inMask (d.group g).members c = true := by
  have := List.find?_some h; simpa using this

theorem groupOf_of {d : Device} {c : Chan} {g : Grp} (hr : groupsRule d) (h : inMask (d.group g).members c = true) : groupOf d c = some g := by
  cases hg : groupOf d c with
  | none => rw [groupOf_none] at hg; simp [hg g] at h
  | some g' => rw [hr.1 g' g c (groupOf_some hg) h]

theorem isMember_eq (d : Device) (c : Chan) : isMember d c = (groupOf d c).isSome := by
  rw [Bool.eq_iff_iff, isMember, any_groups, Option.isSome_iff_ne_none, ne_eq, groupOf_none]
  simp

theorem isFollower_eq {d : Device} (hr : groupsRule d) (c : Chan) : isFollower d c = followsOnly d c := by
  rw [Bool.eq_iff_iff, isFollower, any_groups, followsOnly]
  cases hg : groupOf d c with
  | none => rw [groupOf_none] at hg; simp [hg]
  | some g =>
    simp only [leads, Bool.and_eq_true, bne_iff_ne, ne_eq, Bool.not_eq_true', decide_eq_false_iff_not]
    constructor
    · rintro ⟨g', h1, h2⟩
      have := groupOf_of hr h1
      rw [hg] at this; cases this; exact h2
    · intro h; exact ⟨g, groupOf_some hg, h⟩

theorem inRunning_eq {d : Device} (hr : groupsRule d) (c : Chan) : inRunning d c = (runningGroup d c).isSome := by
  rw [Bool.eq_iff_iff, inRunning, any_groups, runningGroup]
  cases hg : groupOf d c with
  | none => rw [groupOf_none] at hg; simp [hg]
  | some g =>
    simp only [Bool.and_eq_true, bne_iff_ne, ne_eq]
    constructor
    · rintro ⟨g', h1, h2⟩
      have := groupOf_of hr h1
      rw [hg] at this; cases this; simp [h2]
    · intro h
      refine ⟨g, groupOf_some hg, ?_⟩
      by_contra hh; simp [hh] at h

theorem notReady_eq {d : Device} (hr : groupsRule d) {c : Chan} {g : Grp} (hg : groupOf d c = some g) : groupNotReady d c = !groupReady d g := by
  rw [Bool.eq_iff_iff, groupNotReady, any_groups]
  simp only [groupReady, Bool.not_eq_true', Bool.and_eq_true]
  rw [List.all_eq_not_any_not]
  simp only [Bool.not_eq_false', Bool.not_or, Bool.not_not]
  constructor
  · rintro ⟨g', h1, h2⟩
    have := groupOf_of hr h1
    rw [hg] at this; cases this
    simpa [List.any_eq_true, bne] using h2
  · intro h; exact ⟨g, groupOf_some hg, by simpa [List.any_eq_true, bne] using h⟩

theorem configFails_eq (x : SweepConfig) : configFails x = !configOk x := by
  have hp : ∀ p : BitVec 2, (p == 2 || p == 3) = !decide (p.toNat < 2) := by decide
  have h1 : decide (1023 < x.settleTime.toNat) = !decide (x.settleTime.toNat ≤ 1023) := by
    rw [Bool.eq_iff_iff]; simp
  have h2 : decide (60000 < x.track.interval.toNat) = !decide (x.track.interval.toNat ≤ 60000) := by
    rw [Bool.eq_iff_iff]; simp
  unfold configFails configOk
  rw [h1, h2]
  simp only [bne, Bool.not_and, Bool.not_not]
  rw [← hp]
  simp only [Bool.or_assoc]

theorem argIn_eq (d : Device) (c : Chan) (w : Window) : argIn d c w = none ↔ argOutside d c w = true := by
  have hw := w.last.isLt
  unfold argIn argOutside inWindow
  dsimp only
  by_cases h : (d.ctl c).command.toNat ≤ 127 ∧
            (decide (↑w.first ≤ (d.ctl c).command.toNat) && decide ((d.ctl c).command.toNat ≤ ↑w.last)) = true
  · rw [if_pos h]; simp at h ⊢; omega
  · rw [if_neg h]; simp at h ⊢; omega

theorem argIn_some {d : Device} {c : Chan} {w : Window} {i : Idx} (h : argOutside d c w = false) (hi : (d.ctl c).command.toNat = i.val) : argIn d c w = some i := by
  have h1 : argIn d c w ≠ none := by rw [ne_eq, argIn_eq]; simp [h]
  unfold argIn at h1 ⊢
  dsimp only at h1 ⊢
  split at h1
  · rename_i h2; rw [if_pos h2]; simp [idxOf, hi]; exact Fin.ext (Nat.mod_eq_of_lt i.isLt)
  · simp at h1

end Sys2Proof.Machine
end

