-- ==== Sys2Proof/Laws/Memory.lean ====
section
/-! SUPPORT. The shared RAM: a read after a write, what a write leaves as it was, and that every memory operation keeps the
canonical form. Later proofs cite these and never unfold `Memory.insert`. -/

namespace Sys2Proof.Machine

open Sys2Proof

/-! ### The list -/

theorem Memory.lookup_insert (m : List Host.Cell) (a b : Nat) (v : Byte) :
    Memory.lookup (Memory.insert m a v) b = if b = a then some v else Memory.lookup m b := by
  induction m with
  | nil => simp [Memory.insert, Memory.lookup, eq_comm]
  | cons x m ih =>
    obtain ⟨k, w⟩ := x
    simp only [Memory.insert]
    split
    · simp only [Memory.lookup]; split <;> simp_all [eq_comm]
    · split
      · simp only [Memory.lookup]; split <;> simp_all [eq_comm]
      · next h1 h2 =>
        simp only [Memory.lookup, ih]
        by_cases hk : k = b
        · subst hk; simp [Ne.symm h2]
        · simp [hk]

theorem Memory.wf_tail {x : Host.Cell} {m : List Host.Cell} (h : Memory.wf (x :: m) = true) : Memory.wf m = true := by
  obtain ⟨k, w⟩ := x
  cases m with
  | nil => rfl
  | cons y m => obtain ⟨k', w'⟩ := y; simp only [Memory.wf, Bool.and_eq_true] at h; exact h.2

/-- The first offset of a list, as a lower bound for what may stand before it. -/
theorem Memory.wf_cons_iff (k : Nat) (v : Byte) (m : List Host.Cell) :
    Memory.wf ((k, v) :: m) = true ↔ Memory.wf m = true ∧ ∀ x, m.head? = some x → k < x.1 := by
  cases m with
  | nil => simp [Memory.wf]
  | cons y m => obtain ⟨k', w'⟩ := y; simp [Memory.wf, and_comm]

theorem Memory.head_insert (m : List Host.Cell) (a : Nat) (v : Byte) (x : Host.Cell)
    (h : (Memory.insert m a v).head? = some x) : x.1 = a ∨ ∃ y, m.head? = some y ∧ x.1 = y.1 := by
  cases m with
  | nil => simp [Memory.insert] at h; left; rw [← h]
  | cons y m =>
    obtain ⟨k, w⟩ := y
    simp only [Memory.insert] at h
    split at h
    · simp at h; left; rw [← h]
    · split at h
      · simp at h; left; rw [← h]
      · simp at h; right; exact ⟨(k, w), rfl, by rw [← h]⟩

/-- A write keeps the canonical form. -/
theorem Memory.wf_insert {m : List Host.Cell} (a : Nat) (v : Byte) (h : Memory.wf m = true) :
    Memory.wf (Memory.insert m a v) = true := by
  induction m with
  | nil => rfl
  | cons x m ih =>
    obtain ⟨k, w⟩ := x
    have ht := Memory.wf_tail h
    simp only [Memory.insert]
    split
    · next hk => rw [Memory.wf_cons_iff]; exact ⟨h, by simpa using hk⟩
    · split
      · next hk => subst hk; rw [Memory.wf_cons_iff] at h ⊢; exact h
      · next h1 h2 =>
        rw [Memory.wf_cons_iff] at h ⊢
        refine ⟨ih ht, fun y hy => ?_⟩
        rcases Memory.head_insert m a v y hy with e | ⟨z, hz, e⟩
        · rw [e]; omega
        · rw [e]; exact h.2 z hz

/-- Right after reset the RAM lists nothing, which is canonical. -/
theorem Memory.wf_nil : Memory.wf [] = true := rfl

/-! ### Bytes and words of the part -/

@[simp] theorem ramByte_writeWord (a : Nat) (v : BusWord) (d : Device) (b : Nat) :
    ramByte (writeWord a v d) b =
      if b = a + 1 then v.extractLsb' 8 8 else if b = a then v.setWidth 8 else ramByte d b := by
  simp only [ramByte, writeWord, Memory.lookup_insert]
  split
  · rfl
  · split <;> rfl

/-- A word reads back as it was stored. -/
theorem ramWord_writeWord_self (a : Nat) (v : BusWord) (d : Device) : ramWord (writeWord a v d) a = v := by
  simp only [ramWord, ramByte_writeWord, if_true]
  rw [if_neg (by omega)]
  apply BitVec.eq_of_getLsbD_eq
  intro i hi
  simp only [BitVec.getLsbD_append, BitVec.getLsbD_setWidth, BitVec.getLsbD_extractLsb']
  split <;> rename_i h
  · simp [h]
  · have : 8 + (i - 8) = i := by omega
    rw [this]; simp; omega

/-- A word stored elsewhere leaves a word as it was. -/
theorem ramWord_writeWord_ne {a b : Nat} (v : BusWord) (d : Device) (h : b + 2 ≤ a ∨ a + 2 ≤ b) :
    ramWord (writeWord a v d) b = ramWord d b := by
  simp only [ramWord, ramByte_writeWord]
  rw [if_neg (by omega), if_neg (by omega), if_neg (by omega), if_neg (by omega)]

/-- Nothing but the RAM changes when a word is stored. -/
theorem writeWord_eq (a : Nat) (v : BusWord) (d : Device) : { writeWord a v d with ram := d.ram } = d := rfl

theorem wf_writeWord (a : Nat) (v : BusWord) (d : Device) (h : Memory.wf d.ram = true) :
    Memory.wf (writeWord a v d).ram = true := Memory.wf_insert _ _ (Memory.wf_insert _ _ h)

theorem writeWords_eq (a : Nat) (ws : List BusWord) (d : Device) : { writeWords a ws d with ram := d.ram } = d := by
  induction ws generalizing a d with
  | nil => rfl
  | cons w ws ih =>
    have h := ih (a + 2) (writeWord a w d)
    simp only [writeWords]
    calc { writeWords (a + 2) ws (writeWord a w d) with ram := d.ram }
        = { { writeWords (a + 2) ws (writeWord a w d) with ram := (writeWord a w d).ram } with ram := d.ram } := rfl
      _ = d := by rw [h]; rfl

theorem wf_writeWords (a : Nat) (ws : List BusWord) (d : Device) (h : Memory.wf d.ram = true) :
    Memory.wf (writeWords a ws d).ram = true := by
  induction ws generalizing a d with
  | nil => exact h
  | cons w ws ih => exact ih _ _ (wf_writeWord a w d h)

/-- Consecutive words reach their own bytes and no other. -/
theorem ramByte_writeWords_of_outside (a : Nat) (ws : List BusWord) (d : Device) (b : Nat)
    (h : b < a ∨ a + 2 * ws.length ≤ b) : ramByte (writeWords a ws d) b = ramByte d b := by
  induction ws generalizing a d with
  | nil => rfl
  | cons w ws ih =>
    simp only [List.length_cons] at h
    simp only [writeWords]
    rw [ih _ _ (by omega), ramByte_writeWord, if_neg (by omega), if_neg (by omega)]

/-- Consecutive words read back as they were stored. -/
theorem ramWord_writeWords (a : Nat) (ws : List BusWord) (d : Device) (j : Nat) (h : j < ws.length) :
    ramWord (writeWords a ws d) (a + 2 * j) = ws.getD j 0 := by
  induction ws generalizing a d j with
  | nil => simp at h
  | cons w ws ih =>
    cases j with
    | zero =>
      simp only [writeWords, Nat.mul_zero, Nat.add_zero, List.getD_cons_zero]
      have e : ramWord (writeWords (a + 2) ws (writeWord a w d)) a = ramWord (writeWord a w d) a := by
        simp only [ramWord]
        rw [ramByte_writeWords_of_outside _ _ _ _ (by omega), ramByte_writeWords_of_outside _ _ _ _ (by omega)]
      rw [e, ramWord_writeWord_self]
    | succ j =>
      simp only [List.length_cons] at h
      simp only [writeWords, List.getD_cons_succ]
      rw [show a + 2 * (j + 1) = a + 2 + 2 * j by omega]
      exact ih _ _ _ (by omega)

/-- A record has 15 body words. -/
@[simp] theorem bodyWords_length (r : Record) : (bodyWords r).length = 15 := by cases r <;> rfl

/-- The memory after a fill is that of its words. -/
theorem writeRecord_ram (c : Chan) (r : Record) (d : Device) :
    (writeRecord c r d).ram =
      (writeWord (fillAddr d c) (controlWord r (wrapFlag (fillControl d c)) (irqFlag (fillControl d c)))
        (writeWords (fillAddr d c + 2) (bodyWords r) d)).ram := by
  simp only [writeRecord]
  split <;> rfl

theorem wf_writeRecord (c : Chan) (r : Record) (d : Device) (h : Memory.wf d.ram = true) :
    Memory.wf (writeRecord c r d).ram = true := by
  rw [writeRecord_ram]; exact wf_writeWord _ _ _ (wf_writeWords _ _ _ h)

/-- A fill reaches no byte outside the descriptor at its fill position. -/
theorem ramByte_writeRecord_of_outside (c : Chan) (r : Record) (d : Device) (b : Nat)
    (h : b < fillAddr d c ∨ fillAddr d c + 32 ≤ b) : ramByte (writeRecord c r d) b = ramByte d b := by
  have e : (writeRecord c r d).epoch = d.epoch := by
    have hw := congrArg Device.epoch (writeWords_eq (fillAddr d c + 2) (bodyWords r) d)
    simp only [writeRecord]
    split <;> exact hw
  have hr : ramByte (writeRecord c r d) b =
      ramByte
        (writeWord (fillAddr d c) (controlWord r (wrapFlag (fillControl d c)) (irqFlag (fillControl d c)))
          (writeWords (fillAddr d c + 2) (bodyWords r) d)) b := by
    have hw := congrArg Device.epoch (writeWords_eq (fillAddr d c + 2) (bodyWords r) d)
    simp only [ramByte, writeRecord_ram, e]
    congr 2
    exact hw.symm
  rw [hr, ramByte_writeWord, if_neg (by omega), if_neg (by omega),
    ramByte_writeWords_of_outside _ _ _ _ (by rw [bodyWords_length]; omega)]

/-- The descriptor at a fill position lies in its ring. -/
theorem fillAddr_bounds (d : Device) (c : Chan) :
    0x0800 + 0x200 * c.val ≤ fillAddr d c ∧ fillAddr d c + 32 ≤ 0x0800 + 0x200 * c.val + 0x200 := by
  have h := (d.ctl c).fillPosition.isLt
  unfold fillAddr ringAddr
  omega

theorem wf_endingWrite (c : Chan) (r : Record) (d : Device) (h : Memory.wf d.ram = true) :
    Memory.wf (endingWrite c r d).ram = true := by
  unfold endingWrite
  split
  · exact wf_writeRecord c r d h
  · exact h

/-- An ending write reaches no byte outside its channel's ring. -/
theorem ramByte_endingWrite_of_outside (c : Chan) (r : Record) (d : Device) (b : Nat)
    (h : b < 0x0800 + 0x200 * c.val ∨ 0x0800 + 0x200 * c.val + 0x200 ≤ b) :
    ramByte (endingWrite c r d) b = ramByte d b := by
  have hb := fillAddr_bounds d c
  unfold endingWrite
  split
  · exact ramByte_writeRecord_of_outside c r d b (by omega)
  · rfl

theorem wf_endingWriteOpt (c : Chan) (r : Option Record) (d : Device) (h : Memory.wf d.ram = true) :
    Memory.wf (endingWriteOpt c r d).ram = true := by
  cases r with
  | none => exact h
  | some r => exact wf_endingWrite c r d h

theorem ramByte_endingWriteOpt_of_outside (c : Chan) (r : Option Record) (d : Device) (b : Nat)
    (h : b < 0x0800 + 0x200 * c.val ∨ 0x0800 + 0x200 * c.val + 0x200 ≤ b) :
    ramByte (endingWriteOpt c r d) b = ramByte d b := by
  cases r with
  | none => rfl
  | some r => exact ramByte_endingWrite_of_outside c r d b h

end Sys2Proof.Machine
end

