-- ==== Sys2Proof/Laws/Operations.lean ====
section
/-! SUPPORT. The shared operations in the words of the statements: one lemma for each says once everything the operation does. -/

namespace Sys2Proof.Machine

open Sys2Proof

/-! ### Outcomes of a command and of a write -/

theorem refuse_eq (code : BitVec 8) (st : LastStatus) (c : Chan) (d : Device) :
    refuse code st c d = modChan c (withRefusal code st) d := by
  simp only [refuse, raise, modCtl, modChan_modChan]; rfl

theorem accept_eq (code : BitVec 8) (st : LastStatus) (c : Chan) (d : Device) :
    accept code st c d = modCtl c (fun k => { k with lastCommand := code, lastStatus := st }) d := rfl

theorem badWrite_eq (cause : WriteFault) (offset : Nat) (d : Device) : badWrite cause offset d = withBadWrite cause offset d := rfl

/-! ### Rest, APPLIED, and the point cycle -/

theorem toRest_eq (c : Chan) (st : ChanState) (d : Device) : toRest c st d = modChan c (restedIn st) d := rfl

theorem enterApplied_eq (c : Chan) (d : Device) : enterApplied c d = modChan c nowApplied d := rfl

theorem beginSettle_eq (c : Chan) (p : Copy) (d : Device) : beginSettle c p d = settleFrom c p d := rfl

theorem showFetchFailure_eq (c : Chan) (r : CheckResult) (i : Idx) (d : Device) :
    showFetchFailure c r i d = modChan c (fetchFailed r i) d := rfl

theorem invalidRecord_eq (d : Device) (c : Chan) (i : Idx) : invalidRecord d c i = invalidPointFor (d.chan c) i d.time.ms := rfl

theorem pointRecordOf_eq (d : Device) (c : Chan) (p : Copy) (counted : Bool) (o : PointOutcome) :
    pointRecordOf d c p counted o = .point (pointRecordFor (d.chan c) p counted o d.time.ms) := rfl

theorem memberSummary_eq (d : Device) (c : Chan) (f : Figures) (o : SweepOutcome) (selected : Idx) (cause : HaltCause) :
    memberSummary d c f o selected cause = memberSummaryOf (d.chan c) f o selected cause d.time.ms := rfl

theorem sweepEnding_eq (c : Chan) (d : Device) : sweepEnding c d = sweepCloses c d := by
  unfold sweepEnding sweepCloses
  have hk : d.ctl c = (d.chan c).ctl := rfl
  cases hs : select (forceOf (d.ctl c)).policy (d.ctl c).selection with
  | none =>
    simp only [hs]
    refine modChan_congr ?_
    rw [hk] at hs
    simp only [hs]
    rfl
  | some i =>
    simp only [hs]
    refine modChan_congr (f := fun k => { k with ctl := { k.ctl with task := .selectedRefetch i (stamp d) } }) ?_
    rw [hk] at hs
    simp only [hs]
    rfl

/-- The end of a point under way at a channel. -/
theorem endPoint_eq (c : Chan) (o : PointOutcome) (d : Device) (p : Copy) (inDwell : Bool)
    (h : (d.ctl c).task.underWay = some (p, inDwell)) :
    endPoint c o d =
      if (d.ctl c).origin = .track ∧ (forceOf (d.ctl c)).track.recordMode = .moves then
        afterCandidate c (modChan c (fun k => pointEnded k p inDwell o d.time.ms) d)
      else modChan c (fun k => pointEnded k p inDwell o d.time.ms) d := by
  have hk : d.ctl c = (d.chan c).ctl := rfl
  unfold endPoint
  simp only [h]
  cases ho : (d.ctl c).origin with
  | none =>
    simp only [reduceCtorEq, false_and, if_false]
    refine modChan_congr ?_
    rw [hk] at ho
    simp only [pointEnded, ho]
  | single =>
    simp only [reduceCtorEq, false_and, if_false, modCtl, modChan_modChan]
    refine modChan_congr ?_
    rw [hk] at ho
    simp only [pointEnded, ho]
    rfl
  | sweep =>
    simp only [reduceCtorEq, false_and, if_false]
    cases hg : (d.ctl c).group with
    | none =>
      simp only [modCtl, modChan_modChan]
      refine modChan_congr ?_
      rw [hk] at ho hg
      simp only [pointEnded, ho, hg]
      rfl
    | some g =>
      simp only [modCtl, modChan_modChan]
      refine modChan_congr ?_
      rw [hk] at ho hg
      simp only [pointEnded, ho, hg]
      rfl
  | track =>
    simp only [true_and, modCtl, modChan_modChan]
    have e : ∀ f : Channel → Channel, f (d.chan c) = pointEnded (d.chan c) p inDwell o d.time.ms →
        modChan c f d = modChan c (fun k => pointEnded k p inDwell o d.time.ms) d := fun f hf => modChan_congr hf
    rw [e _ (by rw [hk] at ho; simp only [pointEnded, ho]; rfl)]
    cases hr : (forceOf (d.ctl c)).track.recordMode <;> simp

/-! ### Endings -/

theorem endingPoint_eq (d : Device) (c : Chan) (o : PointOutcome) :
    (endingPoint d c (some o)).toList = endingPointOf (d.chan c) o d.time.ms := by
  have hk : d.ctl c = (d.chan c).ctl := rfl
  unfold endingPoint endingPointOf
  simp only [hk]
  cases hu : (d.chan c).ctl.task.underWay with
  | some x =>
    obtain ⟨p, b⟩ := x
    simp only
    split <;> rfl
  | none =>
    simp only
    cases hr : (d.chan c).ctl.task.pendingRecord with
    | none => rfl
    | some r => cases r <;> rfl

theorem endingWriteOpt_eq (c : Chan) (r : Option Record) (d : Device) : endingWriteOpt c r d = writeAll c r.toList d := by
  cases r <;> rfl

theorem writeAll_append (c : Chan) (l m : List Record) (d : Device) : writeAll c (l ++ m) d = writeAll c m (writeAll c l d) := by
  induction l generalizing d with
  | nil => rfl
  | cons r l ih => exact ih _

/-- What an ending's close does at its channel. -/
theorem closeWith_eq (k : Closing) (swept : Bool) (c : Chan) (d : Device) : closeWith k swept c d = closedBy k swept c d := by
  cases k <;> cases swept <;>
    simp only [closeWith, closedBy, raiseIf, raise, modCtl, toRest_eq, modChan_modChan, if_true, if_false, Bool.false_eq_true] <;>
    refine modChan_congr ?_ <;>
    simp [chanRaise, restedIn, atRestIn]

/-- Everything an ending does: its records and its close, or its first record alone where the host waits with a write of the ring. -/
theorem endWith_eq (waits : Bool) (point summary : Option Record) (k : Closing) (c : Chan) (d : Device) :
    endWith waits point summary k c d = endsWith waits c (point.toList ++ summary.toList) k summary.isSome d := by
  cases point <;> cases summary <;> cases waits <;> simp [endWith, endsWith, endingWriteOpt, writeAll, closeWith_eq]

/-- The host's waiting write, in the words of the statements. -/
theorem hostWaits_eq (c : Chan) (l : List Instr) : hostWaits c l = ringWriteNext c l := by
  have hc := c.isLt
  have low : (∀ r, enableAddress r < 0x0800) ∧ (∀ r, userAddress r < 0x0800) ∧ ∀ r, checkerAddress r < 0x0800 := by
    refine ⟨fun r => by cases r <;> decide, fun r => ?_, fun r => by cases r <;> decide⟩
    cases r with
    | length => decide
    | word q high => have := q.isLt; simp only [userAddress]; split <;> omega
  cases l with
  | nil => rfl
  | cons i l =>
    cases i <;>
      simp only [hostWaits, ringWriteNext, List.head?_cons, Option.bind_some, hostAccessOf] <;>
      (try rw [Bool.eq_iff_iff]) <;> simp [Fin.ext_iff] <;> try omega
    · next r v => have := low.1 r; omega
    · next r v => have := low.2.1 r; omega
    · next r v => have := low.2.2 r; omega

/-- What a fill changes of its channel: the fill position, and POINT where IRQ was set. -/
def filled (w : BusWord) (k : Channel) : Channel :=
  { k with
    raised := if irqFlag w then k.raised ++ [.point] else k.raised
    ctl := { k.ctl with fillPosition := nextFill k.ctl.fillPosition (wrapFlag w) } }

/-- What a discard changes of its channel: the Overrun Count, and OVERRUN. -/
def discarded (k : Channel) : Channel :=
  { k with
    raised := k.raised ++ [.overrun]
    ctl := { k.ctl with overrun := if k.ctl.overrun = 255 then 255 else k.ctl.overrun + 1 } }

/-- A store of consecutive words changes the RAM alone. -/
theorem writeWords_form (a : Nat) (ws : List BusWord) (d : Device) :
    writeWords a ws d = { d with ram := (writeWords a ws d).ram } := by
  have h := writeWords_eq a ws d
  calc writeWords a ws d = { { writeWords a ws d with ram := d.ram } with ram := (writeWords a ws d).ram } := rfl
    _ = { d with ram := (writeWords a ws d).ram } := by rw [h]

/-- A fill is a change of its channel and of the RAM. -/
theorem writeRecord_form (c : Chan) (r : Record) (d : Device) :
    writeRecord c r d = { modChan c (filled (fillControl d c)) d with ram := (writeRecord c r d).ram } := by
  rw [writeRecord_ram]
  simp only [writeRecord]
  generalize fillControl d c = w
  rw [writeWords_form]
  generalize (writeWords (fillAddr d c + 2) (bodyWords r) d).ram = m
  by_cases hi : irqFlag w = true
  · have e : filled w = fun k => chanRaise .point
        { k with ctl := { k.ctl with fillPosition := nextFill k.ctl.fillPosition (wrapFlag w) } } := by
      funext k; simp only [filled, hi, if_true]; rfl
    simp only [hi, if_true, raise, modCtl, modChan_modChan, e]
    rfl
  · have e : filled w = fun k =>
        { k with ctl := { k.ctl with fillPosition := nextFill k.ctl.fillPosition (wrapFlag w) } } := by
      funext k; simp only [filled, hi, Bool.false_eq_true, if_false]
    simp only [hi, Bool.false_eq_true, if_false, modCtl, e]
    rfl

theorem discardRecord_eq (c : Chan) (d : Device) : discardRecord c d = modChan c discarded d := by
  simp only [discardRecord, raise, modCtl, modChan_modChan]; rfl

/-- An ending write is a change of its channel, of the RAM and of the arbiter's rotation. -/
theorem endingWrite_form (c : Chan) (r : Record) (d : Device) :
    endingWrite c r d =
      takeTurn c
        { modChan c (if ownPart (fillControl d c) then filled (fillControl d c) else discarded) d with
          ram := (endingWrite c r d).ram } := by
  simp only [endingWrite, takeTurn_ram]
  split
  · exact congrArg (takeTurn c) (writeRecord_form c r d)
  · rw [discardRecord_eq]

/-! ### The RAM Arbiter -/

/-- With a request first in the rotation, or nobody waiting, no turn has come. -/
theorem settled_request (d : Device)
    (h : ∀ c : Chan, firstWaiting (requesting d) d.arbiter = some (reqChan c) → d.arbiter.turns.get c = 0) :
    settled d = d.arbiter := by
  unfold settled
  cases turnsLeft d.arbiter with
  | zero => rfl
  | succ n =>
    simp only [passTurns]
    split
    · next r hr =>
      split
      · next hlt => rw [if_pos (h ⟨r.val, hlt⟩ hr)]
      · rfl
    · rfl

theorem turnsLeft_passTurn (c : Chan) (a : Arbiter) (h : a.turns.get c ≠ 0) :
    turnsLeft a = turnsLeft (passTurn c a) + 1 := by
  simp only [turnsLeft, passTurn, allChans, List.map_cons, List.map_nil, List.sum_cons, List.sum_nil,
    Eight.get_set]
  revert h
  fin_cases c <;> simp <;> omega

/-- A turn that is first in the rotation comes, and the rest follows. -/
theorem settled_turn (d : Device) (c : Chan) (h : firstWaiting (requesting d) d.arbiter = some (reqChan c))
    (hc : d.arbiter.turns.get c ≠ 0) :
    settled d = settled { d with arbiter := passTurn c d.arbiter } := by
  have e : requesting { d with arbiter := passTurn c d.arbiter } = requesting d := rfl
  have hlt : (reqChan c).val < 8 := c.isLt
  simp only [settled, e, turnsLeft_passTurn c d.arbiter hc, passTurns, h, hlt, dif_pos]
  exact if_neg hc

/-- With no turn to come the rotation stands. -/
theorem settled_quiet (d : Device) (h : ∀ c, d.arbiter.turns.get c = 0) : settled d = d.arbiter :=
  settled_request d fun c _ => h c

/-! ### Groups -/

theorem handAll_eq (g : Grp) (m : GroupMessage) (d : Device) :
    handAll g m d =
      mapChans (fun c k =>
        if inMask (d.group g).members c = true ∧ k.ctl.group = some g then { k with ctl := { k.ctl with message := some m } }
        else k) d := atMembers_eq g _ d

/-- A group's quiet return to IDLE. -/
theorem quietClose_eq (g : Grp) (d : Device) :
    quietClose g d =
      paceRefresh (modGroup g (groupClosed none)
        (mapChans (fun c k => if inMask (d.group g).members c then { k with ctl := { k.ctl with haltReport := false } } else k) d)) := by
  have e : closeRecord = groupClosed none := rfl
  unfold quietClose
  rw [e]
  congr 2
  exact forMask_modChan _ (fun _ k => { k with ctl := { k.ctl with haltReport := false } }) d

/-- A group's halting condition, in the words of Safety.lean. -/
theorem setHalting_eq (g : Grp) (d : Device) : setHalting g d = haltingFrom g d := rfl

/-- A running group enters its halting condition and closes where no member remains; an IDLE one is left as it is. -/
theorem enterHalting_eq (g : Grp) (d : Device) :
    enterHalting g d = if (d.group g).state = .idle then d else finishHalting g (haltingFrom g d) := rfl

@[simp] theorem leaveBarrier_members (c : Chan) (x : Group) : (leaveBarrier c x).members = x.members := rfl
@[simp] theorem leaveBarrier_state (c : Chan) (x : Group) : (leaveBarrier c x).state = x.state := rfl
@[simp] theorem leaveBarrier_selection (c : Chan) (x : Group) : (leaveBarrier c x).selection = x.selection := rfl
@[simp] theorem leaveBarrier_atBarrier (c : Chan) (x : Group) : (leaveBarrier c x).atBarrier = maskErase x.atBarrier c := rfl
@[simp] theorem leaveBarrier_reports (c : Chan) (x : Group) : (leaveBarrier c x).reports = x.reports.set c none := rfl
@[simp] theorem leaveRecord_members (c : Chan) (x : Group) : (leaveRecord c x).members = maskErase x.members c := rfl
@[simp] theorem leaveRecord_atBarrier (c : Chan) (x : Group) : (leaveRecord c x).atBarrier = maskErase x.atBarrier c := rfl
@[simp] theorem leaveRecord_reports (c : Chan) (x : Group) : (leaveRecord c x).reports = x.reports.set c none := rfl

/-! ### While no command waits -/

theorem idleWaits_chan (d : Device) (c : Chan) : idleWaits d ⟨c.val, by omega⟩ = !(d.chan c).raised.isEmpty := by
  simp [idleWaits]

theorem idleWaits_device (d : Device) : idleWaits d 8 = !d.raised.isEmpty := by
  simp [idleWaits]

theorem idleWaits_preload (d : Device) : idleWaits d 9 = decide (d.preload.work = .between) := by
  simp [idleWaits]

theorem nextIdle_waits {d : Device} {i : Fin 10} (h : nextIdle d = some i) : idleWaits d i = true := by
  obtain ⟨k, -, hk⟩ := List.exists_of_findSome?_eq_some h
  simp only at hk
  split at hk
  · next hw => cases hk; exact hw
  · cases hk

/-- No happening comes next exactly where none can: each is within ten places of any first one. -/
theorem nextIdle_none {d : Device} : nextIdle d = none ↔ ∀ i, idleWaits d i = false := by
  unfold nextIdle
  rw [List.findSome?_eq_none_iff]
  constructor
  · intro h i
    have hi := i.isLt
    have hf := (Config.firstIdle d.free).isLt
    have hk := h ((i.val + 10 - (Config.firstIdle d.free).val) % 10) (by
      have := Nat.mod_lt (i.val + 10 - (Config.firstIdle d.free).val) (show 0 < 10 by decide)
      simp only [List.mem_cons, List.not_mem_nil, or_false]
      omega)
    have e : ((Config.firstIdle d.free).val + (i.val + 10 - (Config.firstIdle d.free).val) % 10) % 10 = i.val := by omega
    simpa [e] using hk
  · intro h k _
    simp [h]

theorem beginBlock_eq {d : Device} (h : d.preload.work = .between) : beginBlock d = blockBegun d := by
  simp only [beginBlock, h]; rfl

theorem beginBlock_of_ne {d : Device} (h : d.preload.work ≠ .between) : beginBlock d = d := by
  unfold beginBlock
  split <;> first | rfl | contradiction

/-- Everything a happening can do while no command waits: nothing where none can come; else the oldest raise of a channel's set, or of
the device's, is taken, or the Preload Controller begins its next block. -/
theorem idle_cases (d : Device) :
    (noRaiseWaits d ∧ d.preload.work ≠ .between ∧ idle d = d)
      ∨ (∃ c e l, (d.chan c).raised = e :: l
          ∧ idle d = modChan c (fun k => { k with events := setBit k.events (chanEventBit e), raised := l })
              { d with free := d.free + 1 })
      ∨ (∃ e l, d.raised = e :: l
          ∧ idle d = { d with events := setBit d.events (devEventBit e), raised := l, free := d.free + 1 })
      ∨ (d.preload.work = .between ∧ idle d = blockBegun { d with free := d.free + 1 }) := by
  unfold idle
  cases h : nextIdle d with
  | none =>
    rw [nextIdle_none] at h
    refine .inl ⟨⟨?_, fun c => ?_⟩, ?_, rfl⟩
    · have := h 8; rw [idleWaits_device] at this; simpa using this
    · have := h ⟨c.val, by omega⟩; rw [idleWaits_chan] at this; simpa using this
    · have := h 9; rw [idleWaits_preload] at this; simpa using this
  | some i =>
    have hw := nextIdle_waits h
    by_cases hi : i.val < 8
    · have hc : idleWaits d i = !(d.chan ⟨i.val, hi⟩).raised.isEmpty := by simp [idleWaits, hi]
      rw [hc] at hw
      cases hr : (d.chan ⟨i.val, hi⟩).raised with
      | nil => simp [hr] at hw
      | cons e l =>
        refine .inr (.inl ⟨⟨i.val, hi⟩, e, l, hr, ?_⟩)
        simp only [hi, dif_pos]
        exact modChan_congr (takeRaises_one _ e l hr)
    · by_cases h8 : i.val = 8
      · have hc : idleWaits d i = !d.raised.isEmpty := by simp [idleWaits, h8]
        rw [hc] at hw
        obtain ⟨e, l, hr⟩ : ∃ e l, d.raised = e :: l := List.exists_cons_of_ne_nil (by simpa using hw)
        refine .inr (.inr (.inl ⟨e, l, hr, ?_⟩))
        simp only [h8, if_true, Nat.lt_irrefl, dite_false]
        exact devTakeRaises_one { d with free := d.free + 1 } e l hr
      · have hc : idleWaits d i = decide (d.preload.work = .between) := by simp [idleWaits, hi, h8]
        rw [hc] at hw
        refine .inr (.inr (.inr ⟨of_decide_eq_true hw, ?_⟩))
        simp only [hi, h8, if_false]
        exact beginBlock_eq (of_decide_eq_true hw)

/-- A clear of a channel's set: the first raises that wait are taken, and then the bits written as one are cleared. -/
theorem clearAfter_eq (n : Nat) (v : BusWord) (k : Channel) :
    clearAfter n v k =
      { k with
        events := withRaises (k.raised.take n) k.events &&& ~~~(v.setWidth 14)
        raised := k.raised.drop n } := rfl

/-! ### Word times and ticks -/

theorem advance_eq (d : Device) : advance d = ticked d := by
  unfold advance ticked mapChans
  congr 1
  · simp only [Eight.build, Device.chan, tickTimer]
    congr 1
    all_goals (split <;> simp_all)
  · simp only [Four.build, Device.group, tickBarrier]
    congr 1
    all_goals (split <;> simp_all)

/-- A word time with REFCLK present: the words, the prescaler's count, and the tick where it wraps. -/
theorem wordTime_present (d : Device) (h : d.time.present = true) :
    wordTime d =
      if d.time.prescaler + 1 < d.time.tickLength then
        { sendWords d with time := { d.time with prescaler := d.time.prescaler + 1, gap := 0 } }
      else ticked { sendWords d with time := { d.time with prescaler := 0, tickLength := d.time.refDivider.toNat, gap := 0 } } := by
  simp only [wordTime, h, if_true, countEdge, endsTick]
  by_cases hl : d.time.prescaler + 1 < d.time.tickLength
  · simp [hl, Nat.not_le.mpr hl]
  · simp [hl, Nat.not_lt.mp hl, advance_eq]

theorem wordTime_absent (d : Device) (h : d.time.present = false) : wordTime d = d := by
  simp [wordTime, h]

/-- Several word times are one after another. -/
theorem wordTimes_succ (n : Nat) (d : Device) : wordTimes (n + 1) d = wordTimes n (wordTime d) := rfl

end Sys2Proof.Machine
end

