-- ==== Sys2Proof/Laws/Preload.lean ====
section
/-! SUPPORT. The register blocks of a preload (R174): each is what the host writes of the same registers do. -/

namespace Sys2Proof.Machine

open Sys2Proof

/-! ### What a register write leaves aside -/

/-- The part with other contents of the Host Interface and the Preload Controller. -/
def aside (h : HostInterface) (p : Preload) (d : Device) : Device := { d with host := h, preload := p }

theorem aside_aside (h h' : HostInterface) (p p' : Preload) (d : Device) : aside h p (aside h' p' d) = aside h p d := rfl

theorem asHostWrites_eq (writes : List Instr) (mask : BitVec 8) (d : Device) :
    asHostWrites writes mask d =
      aside d.host d.preload
        (runAll writes
          { pending := [], dev := aside { d.host with pageMask := mask } { d.preload with state := .none } d }).dev := rfl

theorem atChecker_aside (c : Chan) (f : Checker → CheckerStep) (h : HostInterface) (p : Preload) (d : Device) :
    atChecker c f (aside h p d) = aside h p (atChecker c f d) := rfl

theorem modChan_aside (c : Chan) (f : Channel → Channel) (h : HostInterface) (p : Preload) (d : Device) :
    modChan c f (aside h p d) = aside h p (modChan c f d) := rfl

/-- Storing a configuration register neither reads nor writes the Host Interface or the Preload Controller. -/
theorem storeCfg_aside (r : CfgReg) (v : BusWord) (c : Chan) (h : HostInterface) (p : Preload) (d : Device) :
    storeCfg r v c (aside h p d) = aside h p (storeCfg r v c d) := by
  cases r with
  | user r =>
    have : ((aside h p d).chan c).chk.mode = (d.chan c).chk.mode := rfl
    simp only [storeCfg, storeUser, this, modChan_aside, atChecker_aside]
    split <;> rfl
  | checker r =>
    cases r with
    | mode =>
      have : ((aside h p d).ctl c).state = (d.ctl c).state := rfl
      simp only [storeCfg, storeChecker, this, modChan_aside]
      split <;> rfl
    | fixedPattern => rfl
    | fixedPolarity => rfl
  | _ => rfl

theorem storeCfg_held (r : CfgReg) (v : BusWord) (c : Chan) (d : Device) : (storeCfg r v c d).held = d.held := by
  cases r with
  | user r => simp only [storeCfg, storeUser]; split <;> rfl
  | checker r =>
    cases r with
    | mode => simp only [storeCfg, storeChecker]; split <;> rfl
    | fixedPattern => rfl
    | fixedPolarity => rfl
  | _ => rfl

theorem forMask_one (c : Chan) (f : Chan → Device → Device) (d : Device) : forMask (BitVec.ofNat 8 (2 ^ c.val)) f d = f c d := by
  match c with
  | 0 => rfl | 1 => rfl | 2 => rfl | 3 => rfl | 4 => rfl | 5 => rfl | 6 => rfl | 7 => rfl

theorem oneBit_ne (c : Chan) : BitVec.ofNat 8 (2 ^ c.val) ≠ 0 := by revert c; decide

/-! ### CHANNEL blocks -/

/-- The host write of a configuration register of the channel page, under a Page Mask of one channel and with no preload in progress,
stores the register in that channel. -/
theorem exec_hostWrite_cfg (o : Nat) (r : CfgReg) (v : BusWord) (c : Chan) (h : HostInterface) (p : Preload) (d : Device)
    (hd : d.held = false) (ho : 0x0100 ≤ o ∧ o < 0x0200 ∧ o % 2 = 0) (hr : cfgRegAt o = some r)
    (hm : h.pageMask = BitVec.ofNat 8 (2 ^ c.val)) (hp : p.state = .none) :
    exec (hostWrite o v) { pending := [], dev := aside h p d } = .next { pending := [], dev := aside h p (storeCfg r v c d) } := by
  have e : 2 * (BitVec.ofNat 12 (o / 2)).toNat = o := by simp only [BitVec.toNat_ofNat]; omega
  have e1 : ¬ o < 0x0080 := by omega
  have e2 : ¬ (0x0080 ≤ o ∧ o < 0x00C0) := by omega
  have e3 : ¬ o < 0x0100 := by omega
  have hq : preloadActive (aside h p d) = false := by simp [preloadActive, aside, hp]
  have hh : (aside h p d).held = false := hd
  have hpm : (aside h p d).host.pageMask = BitVec.ofNat 8 (2 ^ c.val) := hm
  simp only [exec, hostWrite, execRegisterWrite, State.act, hostAccess, hh, e, writeAt, e1, e2, e3, ho.2.1, if_false, if_true,
    dif_neg, not_false_iff, pageWriteAt, hr, pageConfigWrite, hpm, oneBit_ne, unlessPreload, hq, forMask_one, storeCfg_aside,
    Bool.false_eq_true]

theorem runAll_cfg (c : Chan) (h : HostInterface) (p : Preload) (hm : h.pageMask = BitVec.ofNat 8 (2 ^ c.val))
    (hp : p.state = .none) (l : List (Nat × CfgReg × BusWord))
    (hl : ∀ x, x ∈ l → (0x0100 ≤ x.1 ∧ x.1 < 0x0200 ∧ x.1 % 2 = 0) ∧ cfgRegAt x.1 = some x.2.1) :
    ∀ d : Device, d.held = false →
      runAll (l.map fun x => hostWrite x.1 x.2.2) { pending := [], dev := aside h p d }
        = { pending := [], dev := aside h p (l.foldl (fun d x => storeCfg x.2.1 x.2.2 c d) d) } := by
  induction l with
  | nil => intro d _; rfl
  | cons x l ih =>
    intro d hd
    have hx := hl x (List.mem_cons_self ..)
    simp only [List.map_cons, runAll, exec_hostWrite_cfg x.1 x.2.1 x.2.2 c h p d hd hx.1 hx.2 hm hp, List.foldl_cons]
    exact ih (fun y hy => hl y (List.mem_cons_of_mem _ hy)) _ ((storeCfg_held ..).trans hd)

theorem foldl_storeCfg_aside (c : Chan) (l : List (CfgReg × BusWord)) (h : HostInterface) (p : Preload) :
    ∀ d : Device, l.foldl (fun d f => storeCfg f.1 f.2 c d) (aside h p d) = aside h p (l.foldl (fun d f => storeCfg f.1 f.2 c d) d) := by
  induction l with
  | nil => intro d; rfl
  | cons x l ih => intro d; simp only [List.foldl_cons, storeCfg_aside, ih]

/-- The offsets of the registers that a CHANNEL block stores, in the block's order. -/
def channelOffsets : List Nat :=
  [0x010E, 0x0110, 0x0112, 0x0114, 0x0116, 0x011A, 0x011C, 0x0118, 0x0122, 0x0124, 0x0126, 0x0128, 0x012E, 0x012C, 0x012A,
    0x0134, 0x0136, 0x0138, 0x014A, 0x014C, 0x014E, 0x013A, 0x013C, 0x013E, 0x0140, 0x0142, 0x0144, 0x0146, 0x0148]

/-- A CHANNEL block stores its fields as the host writes of their registers would (R174). -/
theorem writeChannelBlock_eq (c : Chan) (ws : List BusWord) (d : Device) (hd : d.held = false) :
    writeChannelBlock c ws d = asHostWrites (channelBlockWrites ws) (BitVec.ofNat 8 (2 ^ c.val)) d := by
  let l : List (Nat × CfgReg × BusWord) := channelOffsets.zip (channelFields ws)
  have e1 : channelBlockWrites ws = l.map fun x => hostWrite x.1 x.2.2 := rfl
  have e2 : channelFields ws = l.map fun x => x.2 := rfl
  have hl : ∀ x, x ∈ l → (0x0100 ≤ x.1 ∧ x.1 < 0x0200 ∧ x.1 % 2 = 0) ∧ cfgRegAt x.1 = some x.2.1 := by
    simp only [l, channelOffsets, channelFields, List.zip_cons_cons, List.zip_nil_right, List.forall_mem_cons, List.not_mem_nil,
      false_implies, implies_true, and_true]
    exact ⟨⟨by decide, rfl⟩, ⟨by decide, rfl⟩, ⟨by decide, rfl⟩, ⟨by decide, rfl⟩, ⟨by decide, rfl⟩, ⟨by decide, rfl⟩,
      ⟨by decide, rfl⟩, ⟨by decide, rfl⟩, ⟨by decide, rfl⟩, ⟨by decide, rfl⟩, ⟨by decide, rfl⟩, ⟨by decide, rfl⟩, ⟨by decide, rfl⟩,
      ⟨by decide, rfl⟩, ⟨by decide, rfl⟩, ⟨by decide, rfl⟩, ⟨by decide, rfl⟩, ⟨by decide, rfl⟩, ⟨by decide, rfl⟩, ⟨by decide, rfl⟩,
      ⟨by decide, rfl⟩, ⟨by decide, rfl⟩, ⟨by decide, rfl⟩, ⟨by decide, rfl⟩, ⟨by decide, rfl⟩, ⟨by decide, rfl⟩, ⟨by decide, rfl⟩,
      ⟨by decide, rfl⟩, ⟨by decide, rfl⟩⟩
  have run := runAll_cfg c { d.host with pageMask := BitVec.ofNat 8 (2 ^ c.val) } { d.preload with state := .none } rfl rfl l hl d hd
  have same : writeChannelBlock c ws d = aside d.host d.preload (writeChannelBlock c ws d) :=
    foldl_storeCfg_aside c (channelFields ws) d.host d.preload d
  have f : l.foldl (fun d x => storeCfg x.2.1 x.2.2 c d) d = writeChannelBlock c ws d := by
    rw [writeChannelBlock, e2, List.foldl_map]
  rw [same, asHostWrites_eq, e1, run, aside_aside, f]

/-! ### ROUTE blocks -/

theorem storeTxSource_aside (t : Chan) (v : BusWord) (h : HostInterface) (p : Preload) (d : Device) :
    storeTxSource t v (aside h p d) = aside h p (storeTxSource t v d) := by
  have e : (aside h p d).lanes = d.lanes := rfl
  simp only [storeTxSource, raiseIf, e]
  split <;> rfl

theorem storeTxSource_held (t : Chan) (v : BusWord) (d : Device) : (storeTxSource t v d).held = d.held := by
  simp only [storeTxSource, raiseIf]
  split <;> rfl

theorem storeCheckerSource_aside (c : Chan) (v : BusWord) (h : HostInterface) (p : Preload) (d : Device) :
    storeCheckerSource c v (aside h p d) = aside h p (storeCheckerSource c v d) := by
  have e : (aside h p d).lanes = d.lanes := rfl
  simp only [storeCheckerSource, e]
  split <;> rfl

theorem storeCheckerSource_held (c : Chan) (v : BusWord) (d : Device) : (storeCheckerSource c v d).held = d.held := by
  simp only [storeCheckerSource]
  split <;> rfl

/-- The host write of a TX Source register with no preload in progress stores it. -/
theorem exec_hostWrite_tx (t : Chan) (v : BusWord) (h : HostInterface) (p : Preload) (d : Device) (hd : d.held = false)
    (hp : p.state = .none) :
    exec (hostWrite (0x0030 + 2 * t.val) v) { pending := [], dev := aside h p d }
      = .next { pending := [], dev := aside h p (storeTxSource t v d) } := by
  have hq : preloadActive (aside h p d) = false := by simp [preloadActive, aside, hp]
  have hh : (aside h p d).held = false := hd
  have e : exec (hostWrite (0x0030 + 2 * t.val) v) { pending := [], dev := aside h p d }
      = .next { pending := [], dev := hostAccess (.write (0x0030 + 2 * t.val) v) (txSourceWrite t v) (aside h p d) } := by
    match t with
    | 0 => rfl | 1 => rfl | 2 => rfl | 3 => rfl | 4 => rfl | 5 => rfl | 6 => rfl | 7 => rfl
  rw [e]
  simp only [hostAccess, hh, txSourceWrite, unlessPreload, hq, storeTxSource_aside, if_false, Bool.false_eq_true]

/-- The host write of a Checker Source register with no preload in progress stores it. -/
theorem exec_hostWrite_checkerSource (c : Chan) (v : BusWord) (h : HostInterface) (p : Preload) (d : Device) (hd : d.held = false)
    (hp : p.state = .none) :
    exec (hostWrite (0x0040 + 2 * c.val) v) { pending := [], dev := aside h p d }
      = .next { pending := [], dev := aside h p (storeCheckerSource c v d) } := by
  have hq : preloadActive (aside h p d) = false := by simp [preloadActive, aside, hp]
  have hh : (aside h p d).held = false := hd
  have e : exec (hostWrite (0x0040 + 2 * c.val) v) { pending := [], dev := aside h p d }
      = .next { pending := [], dev := hostAccess (.write (0x0040 + 2 * c.val) v) (checkerSourceWrite c v) (aside h p d) } := by
    match c with
    | 0 => rfl | 1 => rfl | 2 => rfl | 3 => rfl | 4 => rfl | 5 => rfl | 6 => rfl | 7 => rfl
  rw [e]
  simp only [hostAccess, hh, checkerSourceWrite, unlessPreload, hq, storeCheckerSource_aside, if_false, Bool.false_eq_true]

/-- Host writes of one table of registers, each stored by `store`. -/
theorem runAll_stores (store : Chan → Device → Device) (write : Chan → Instr) (h : HostInterface) (p : Preload)
    (hw : ∀ c (d : Device), d.held = false →
      exec (write c) { pending := [], dev := aside h p d } = .next { pending := [], dev := aside h p (store c d) })
    (hh : ∀ c (d : Device), (store c d).held = d.held) (rest : List Instr) (l : List Chan) :
    ∀ d : Device, d.held = false →
      runAll (l.map write ++ rest) { pending := [], dev := aside h p d }
          = runAll rest { pending := [], dev := aside h p (l.foldl (fun d c => store c d) d) }
        ∧ (l.foldl (fun d c => store c d) d).held = false := by
  induction l with
  | nil => intro d hd; exact ⟨rfl, hd⟩
  | cons c l ih =>
    intro d hd
    simp only [List.map_cons, List.cons_append, runAll, hw c d hd, List.foldl_cons]
    exact ih _ ((hh c d).trans hd)

theorem foldl_store_aside (store : Chan → Device → Device) (h : HostInterface) (p : Preload)
    (ha : ∀ c d, store c (aside h p d) = aside h p (store c d)) (l : List Chan) :
    ∀ d : Device, l.foldl (fun d c => store c d) (aside h p d) = aside h p (l.foldl (fun d c => store c d) d) := by
  induction l with
  | nil => intro d; rfl
  | cons c l ih => intro d; simp only [List.foldl_cons, ha, ih]

/-- TX Source values and then Checker Source values, stored in ascending order. -/
def storeSources (tx cs : Chan → BusWord) (d : Device) : Device :=
  allChans.foldl (fun d c => storeCheckerSource c (cs c) d) (allChans.foldl (fun d t => storeTxSource t (tx t) d) d)

theorem storeSources_aside (tx cs : Chan → BusWord) (h : HostInterface) (p : Preload) (d : Device) :
    storeSources tx cs (aside h p d) = aside h p (storeSources tx cs d) := by
  unfold storeSources
  rw [foldl_store_aside (fun t => storeTxSource t (tx t)) h p (fun t d => storeTxSource_aside t (tx t) h p d),
    foldl_store_aside (fun c => storeCheckerSource c (cs c)) h p (fun c d => storeCheckerSource_aside c (cs c) h p d)]

/-- The host writes of the sixteen source registers, with no preload in progress. -/
theorem runAll_sources (tx cs : Chan → BusWord) (h : HostInterface) (p : Preload) (hp : p.state = .none) (d : Device)
    (hd : d.held = false) :
    runAll (allChans.map (fun t => hostWrite (0x0030 + 2 * t.val) (tx t))
          ++ (allChans.map (fun c => hostWrite (0x0040 + 2 * c.val) (cs c)) ++ []))
        { pending := [], dev := aside h p d }
      = { pending := [], dev := aside h p (storeSources tx cs d) } := by
  have r1 := runAll_stores (fun t => storeTxSource t (tx t)) (fun t => hostWrite (0x0030 + 2 * t.val) (tx t)) h p
    (fun t d hd => exec_hostWrite_tx t (tx t) h p d hd hp) (fun t d => storeTxSource_held t (tx t) d)
    (allChans.map (fun c => hostWrite (0x0040 + 2 * c.val) (cs c)) ++ []) allChans d hd
  have r2 := runAll_stores (fun c => storeCheckerSource c (cs c)) (fun c => hostWrite (0x0040 + 2 * c.val) (cs c)) h p
    (fun c d hd => exec_hostWrite_checkerSource c (cs c) h p d hd hp) (fun c d => storeCheckerSource_held c (cs c) d)
    [] allChans _ r1.2
  exact r1.1.trans r2.1

/-- A ROUTE block stores its sources as the host writes of their registers would (R174). -/
theorem writeRouteBlock_eq (ws : List BusWord) (m : BitVec 8) (d : Device) (hd : d.held = false) :
    writeRouteBlock ws d = asHostWrites (routeBlockWrites ws) m d := by
  let tx : Chan → BusWord := fun t => fieldOf (wordAt ws (2 + t.val)) 0 8
  let cs : Chan → BusWord := fun c => fieldOf (wordAt ws (2 + c.val)) 8 8
  have low : ∀ w : BusWord, BitVec.ofNat 16 (w.toNat % 256) = fieldOf w 0 8 := fun w => by simp [fieldOf]
  have high : ∀ w : BusWord, BitVec.ofNat 16 (w.toNat / 256) = fieldOf w 8 8 := fun w => by
    have : w.toNat / 256 = w.toNat / 2 ^ 8 % 2 ^ 8 := by have := w.isLt; omega
    rw [fieldOf, ← this]
  have e : routeBlockWrites ws
      = allChans.map (fun t => hostWrite (0x0030 + 2 * t.val) (tx t))
          ++ (allChans.map (fun c => hostWrite (0x0040 + 2 * c.val) (cs c)) ++ []) := by
    simp only [routeBlockWrites, low, high, List.append_nil]
    rfl
  have run := runAll_sources tx cs { d.host with pageMask := m } { d.preload with state := .none } rfl d hd
  have same : storeSources tx cs d = aside d.host d.preload (storeSources tx cs d) :=
    storeSources_aside tx cs d.host d.preload d
  have block : writeRouteBlock ws d = storeSources tx cs d := rfl
  rw [block, same, asHostWrites_eq, e, run, aside_aside]

end Sys2Proof.Machine
end

