-- ==== Sys2Proof/Tests/Slice0.lean ====
section
/-! SUPPORT. Tests of the model, each with its expected value from the manual, and for every statement with hypotheses a
concrete state and operands that meet them. -/

namespace Sys2Proof.Tests

-- One theorem after another: each waits for the kernel, and a thread for each would take the memory a check allows.
set_option Elab.async false

open Sys2Proof Sys2Proof.Machine

/-! ### Helpers: small states over the machine right after reset -/

/-- The part right after reset. -/
def base : Device := State.reset.dev

/-- A state over a change of the part right after reset. -/
def st (f : Device → Device) : State := { pending := [], dev := f base }

/-- A state with one controller changed. -/
def ctlAt (c : Chan) (f : Controller → Controller) : State := st (modCtl c f)

/-- The state a command leads to. -/
def after (i : Instr) (s : State) : State :=
  match exec i s with
  | .next t => t
  | .fault _ => s
  | .refused _ => s

/-- Did a fetch pass? -/
def fetches (d : Device) (i : Idx) : Bool :=
  match directedFetch d i none with
  | .ok _ => true
  | .error _ => false

/-- Plan entry `i` valid, in class 0, whose length is set. -/
def withEntry (i : Idx) (d : Device) : Device :=
  { writeWords (entryAddr i) [10, 0, 0, 7] d with dwell := d.dwell.set 0 1 }

/-- Plan entry `i` with a Drive out of range. -/
def withBadEntry (i : Idx) (d : Device) : Device := writeWords (entryAddr i) [31, 0, 0, 0] d

/-- Plan entry `i` with SKIP set. -/
def withSkip (i : Idx) (d : Device) : Device := writeWords (entryAddr i) [0x8000, 0, 0, 0] d

/-- A copy of entry 3. -/
def copy3 : Copy := { index := 3, settings := restSettings, dwellWords := 1024, limit := none, tag := 0 }

/-- A point record. -/
def point3 : PointRecord :=
  { origin := .sweep, group := false, index := 3, seq := 1, words := 1024, bits := 0, errored := 0, firstError := none, tag := 0,
    stamp := 0, outcome := .complete }

/-- A controller in SWEEP with a task. -/
def sweeping (t : Task) (k : Controller) : Controller :=
  { k with
    state := .sweep, task := t, origin := .sweep, window := some { first := 0, last := 127 }, current := some 3,
    force := some SweepConfig.default }

/-- A controller in TRACK with a task. -/
def tracking (t : Task) (k : Controller) : Controller :=
  { k with
    state := .track, task := t, origin := .track, window := some { first := 0, last := 127 }, current := some 3,
    anchor := some 3, force := some SweepConfig.default }

/-- A controller in APPLIED at entry 3. -/
def applied (k : Controller) : Controller :=
  { k with state := .applied, current := some 3, window := some { first := 0, last := 127 } }

/-- Group `g` with channels 0 and 1, led by channel 0. -/
def paired (g : Grp) (f : Group → Group) (d : Device) : Device :=
  modGroup g (fun x => f { x with members := 3, lead := some 0 }) d

/-- A member of group 3's sweep, with a task. -/
def inGroup (t : Task) (k : Controller) : Controller := { sweeping t k with group := some 3 }

/-- The group of `paired` running, past its check, at a point of index 3. -/
def running (t : GroupTask) (x : Group) : Group :=
  { x with
    state := .running, begun := true, current := some 3, task := t, window := some { first := 0, last := 127 },
    force := some SweepConfig.default }

/-- A part in which a preload reads its header. -/
def preloading (w : PreloadWork) (d : Device) : Device := { d with preload := { d.preload with state := .header, work := w } }

/-! ### Well-formed commands: one ill-formed command for each check, refused by it -/

theorem test_wf_bad_code : Instr.wellFormed (.commandBadCode 11) = false ∧ Instr.wellFormed (.commandBadCode 12) = true := by
  decide

theorem test_wf_bad_device_code :
    Instr.wellFormed (.deviceCommandBadCode 3) = false ∧ Instr.wellFormed (.deviceCommandBadCode 0) = true := by
  decide

theorem test_wf_register_with_its_own_row :
    Instr.wellFormed (.registerWrite 0x200 1) = false ∧ Instr.wellFormed (.registerWrite 0x003 1) = true := by
  decide

theorem test_wf_command_write :
    Instr.wellFormed (.registerWrite 0x080 12) = false ∧ Instr.wellFormed (.registerWrite 0x080 11) = true := by
  decide

theorem test_wf_device_command_write :
    Instr.wellFormed (.registerWrite 0x004 4) = false ∧ Instr.wellFormed (.registerWrite 0x004 3) = true := by
  decide

theorem test_wf_transfer_length :
    Instr.wellFormed (.serialTransferDone []) = false ∧ Instr.wellFormed (.serialTransferDone (List.replicate 33 0)) = false
      ∧ Instr.wellFormed (.serialTransferDone (List.replicate 32 0)) = true := by
  decide

/-- The table gives no row bits, so no word spells a command and the queue stays as it is. -/
theorem test_no_word_spells_a_command (n w : Nat) (s : State) : decodeTableWord n w = none ∧ s.withFetchWord n w = s := ⟨rfl, rfl⟩

/-! ### Values the manual writes out -/

/-- R23: the first LFSR-7 word is 0x020C28F2, and inverted 0xFDF3D70D. -/
theorem test_first_lfsr7_word :
    lfsrNext .l7 (BitVec.allOnes 32) = 0x020C28F2 ∧ ~~~(lfsrNext .l7 (BitVec.allOnes 32)) = 0xFDF3D70D := by
  decide +kernel

/-- R182: Device ID 0x0318 and revision 1 after reset. -/
theorem test_device_id_after_reset : busRead base 0x0000 = 0x0318 ∧ busRead base 0x0002 = 1 := by
  decide +kernel

/-- R159: RefDivider keeps 10 to 200 and refuses 9 and 201 with RANGE. -/
theorem test_refdivider_bounds :
    (after (.refdividerWrite 10) State.reset).dev.time.refDivider = 10
      ∧ (after (.refdividerWrite 200) State.reset).dev.time.refDivider = 200
      ∧ (after (.refdividerWrite 201) State.reset).dev.time.refDivider = 100
      ∧ (after (.refdividerWrite 9) State.reset).dev.host.fault = .range := by
  decide +kernel

/-- R71: ENABLE of an OFF channel brings IDLE, and of an IDLE channel is refused with BAD_STATE. -/
theorem test_enable_twice :
    ((after (.enable 5) State.reset).dev.ctl 5).state = .idle
      ∧ ((after (.enable 5) (after (.enable 5) State.reset)).dev.ctl 5).lastStatus = .badState := by
  decide +kernel

/-- R117: of channels 0 to 3, channel 3 cannot join group B while group A holds it. -/
theorem test_members_at_most_one_group :
    ((after (.membersWrite 1 0x0008) (after (.membersWrite 0 0x000F) State.reset)).dev.group 1).members = 0
      ∧ (after (.membersWrite 1 0x0008) (after (.membersWrite 0 0x000F) State.reset)).dev.host.fault = .groupRule := by
  decide +kernel

/-- R57: of two points the lower error ratio, formed as exact products, is Best; equal ratios keep the earlier. -/
theorem test_fold_exact_ratio :
    (foldPoint 4 true false 3 2048 { Selection.cleared with best := some { index := 3, bits := 2, words := 1024 } }).best
        = some { index := 4, bits := 3, words := 2048 }
      ∧ (foldPoint 4 true false 4 2048 { Selection.cleared with best := some { index := 3, bits := 2, words := 1024 } }).best
        = some { index := 3, bits := 2, words := 1024 } := by
  decide +kernel

/-- R59: CENTRE takes the lower of two middles of the Longest Run. -/
theorem test_centre_of_an_even_run :
    select 1 { Selection.cleared with usable := 4, longestFirst := 10, longestLength := 4 } = some 11 := by
  decide

/-- The part one REFCLK edge before a tick. -/
def lastEdge (d : Device) : Device := { d with time := { d.time with prescaler := 99 } }

/-- R161: a timer of one tick expires at that tick, which R158's prescaler produces at its 100th edge. -/
theorem test_timer_counts_out :
    ((after .wordTime (st fun d => modCtl 0 (fun k => { k with timer := some { kind := .lock, left := 1 } }) (lastEdge d))).dev.ctl
        0).timer = some { kind := .lock, left := 0 }
      ∧ ((after .wordTime (ctlAt 0 fun k => { k with timer := some { kind := .lock, left := 1 } })).dev.ctl 0).timer
        = some { kind := .lock, left := 1 } := by
  decide +kernel

/-- R156: of HALT and the SWEEP_END before it, the Event Unit takes SWEEP_END first, and the host can read the set between the
two. -/
theorem test_raises_are_taken_in_order :
    (match step (st fun d => modChan 5 (chanRaiseAll [.sweepEnd, .halt]) d) with
      | .next t => (t.dev.chan 5).events = 0x0002 ∧ (t.dev.chan 5).raised = [.halt] ∧ (t.dev.chan 4).events = 0
      | .fault _ => False
      | .refused _ => False) := by
  have h : nextIdle (modChan 5 (chanRaiseAll [.sweepEnd, .halt]) base) = some 5 := by
    cases hn : nextIdle (modChan 5 (chanRaiseAll [.sweepEnd, .halt]) base) with
    | none => exact absurd (nextIdle_none.mp hn 5) (by decide)
    | some i =>
      have hw := nextIdle_waits hn
      clear hn
      revert hw
      revert i
      decide
  simp only [step, st, idle, h]
  decide

/-- R60, R64: a handback that a stalled channel takes writes the SELECTED summary, so that an ABORT after it meets APPLIED and is
refused. -/
theorem test_handback_writes_before_abort :
    (let r : Record := .summary
       { group := false, outcome := .selected, policy := 0, selected := 3, measured := 1, usable := 1, runFirst := 3, runLength := 1,
         seq := 1, cause := .none, stamp := 0 }
     let s := st fun d => modCtl 7 (fun k => { sweeping (.stall r (.selected true)) k with handbacks := 1 }) (writeWord 0x1600 1 d)
     ((after (.handback 7) s).dev.ctl 7).state = .applied
       ∧ ((after (.abort 7) (after (.handback 7) s)).dev.ctl 7).lastStatus = .badState) := by
  decide +kernel

/-- Channel 7 in DWELL at an early position of its ring, which shows HOST, has signal lost to take; the host waits with the write that
hands the position back. -/
def losing7 : State :=
  { st (fun d => modCtl 7 (fun k => { sweeping (.dwell copy3) k with inbox := [.signalLost] }) (writeWord 0x1620 1 (writeWord 0x1600 0 d)))
    with pending := [.ringControlWordWrite 7 0 1] }

/-- R86, R180: the first record of the halt finds the ring full and is discarded, the waiting host write is served, and the second
record is written. -/
theorem test_host_write_between_two_fills :
    (let s := after (.signalLost 7) losing7
     let t := after (.ringControlWordWrite 7 0 1) s
     (s.dev.ctl 7).state = .sweep ∧ (s.dev.ctl 7).overrun = 1 ∧ (t.dev.ctl 7).state = .halted ∧ (t.dev.ctl 7).overrun = 1
       ∧ (t.dev.ctl 7).fillPosition = 1 ∧ ramWord t.dev 0x1600 = 0x0830 ∧ t.dev.ending = none) := by
  decide +kernel

/-- 10.9: with block 2 of 5 written whole the registers read BLOCKS, 2 and 2, and an ABORT_PRELOAD then leaves Block Number at 2 (R177). -/
theorem test_abort_between_blocks :
    (let d : Device := preloading (.writing [.control 7 15 1]) base
     let s : State := st fun _ =>
       { d with preload := { d.preload with state := .blocks, blockNumber := 2, blockCount := 5, applied := 1 } }
     let t := after .preloadRamWrite s
     t.dev.preload.state = .blocks ∧ t.dev.preload.blockNumber = 2 ∧ t.dev.preload.applied = 2
       ∧ (after .abortPreload t).dev.preload.state = .aborted ∧ (after .abortPreload t).dev.preload.blockNumber = 2) := by
  decide +kernel

/-- R167, R169: the first bytes the part sends for the head of block 1, at image address 16, with MA = 3. -/
theorem test_serial_bytes :
    serialPort (preloading (.transfer { kind := .head, device := serialAddress base.preload, address := 16, length := 4, retries := 0 })
        base)
      = some ([0xA6, 0x00, 0x10, 0xA7], [true, true, true, false]) := by
  decide

/-- R184's example: entry 13 read back from its words, and the control word, body word 1 and counts of its COMPLETE record. -/
theorem test_entry_13_and_its_record :
    (let e := readEntry (writeWords 0x0468 [0x0248, 0x013C, 0x0000, 0x0A0D] base) 13
     let r : Record := .point { point3 with index := 13, seq := 5, words := 16384, tag := 0x0A0D }
     e.settings = { drive := 8, emphasis := 2, phase := BitVec.ofInt 6 (-4), threshold := 1 } ∧ e.dwellClass = 1
       ∧ e.skip = false ∧ e.tag = 0x0A0D ∧ settingsInRange e.settings = true ∧ controlWord r false false = 0x0228
       ∧ (bodyWords r).take 3 = [0x050D, 0x4000, 0x0000]) := by
  decide +kernel

/-! ### Witnesses: the machine -/

theorem witness_StepRunsFrontCommand :
    ({ State.reset with pending := [.tick, .wordTime] } : State).pending = .tick :: [.wordTime] ∧ State.reset.pending = []
      ∧ noRaiseWaits base ∧ ¬ noRaiseWaits (raise 7 .halt base) ∧ ¬ noRaiseWaits (devRaise .badWrite base)
      ∧ base.preload.work ≠ .between ∧ (preloading .between base).preload.work = .between :=
  ⟨rfl, rfl, ⟨rfl, by decide⟩, fun h => absurd (h.2 7) (by decide), fun h => absurd h.1 (by decide), by decide, rfl⟩

theorem witness_HeldPartOnlyWaits :
    (st fun d => { d with held := true }).dev.held = true ∧ reachesHeld .snapshot = false ∧ reachesHeld .tick = false
      ∧ hostAccessOf .snapshot = some (.write 8 1) ∧ hostAccessOf .tick = none := by
  decide

/-- A state with a listed RAM byte, whose next command writes the RAM. -/
def ramState : State := { pending := [.planTableWrite 127 3 0xFFFF], dev := writeWord 0x1FFC 0x1234 base }

theorem witness_RamCanonicalKept : Memory.wf ramState.dev.ram = true ∧ ∃ t, step ramState = .next t := ⟨by decide, _, rfl⟩

theorem witness_RamWritesStayInRing :
    Instr.wellFormed (.fill 7) = true ∧ otherRamRow (.fill 7) = false ∧ ringChannel (.fill 7) = some 7
      ∧ (∃ t, exec (.fill 7) ramState = .next t) ∧ Instr.wellFormed (.commandBadCode 12) = true
      ∧ otherRamRow (.commandBadCode 12) = false ∧ ringChannel (.commandBadCode 12) = none
      ∧ ∃ t, exec (.commandBadCode 12) ramState = .next t :=
  ⟨rfl, by decide, by decide, ⟨_, rfl⟩, by decide, by decide, by decide, _, rfl⟩

/-- A part with a channel at work in each state. -/
def busy : Device :=
  modCtl 3 (fun k => { k with state := .halted })
    (modCtl 2 (tracking .wait) (modCtl 1 (sweeping (.walk 127)) (modCtl 0 applied base)))

theorem busy_chanRule (c : Chan) : chanRule (busy.chan c) := by
  fin_cases c <;> simp [chanRule, stateRule, noWork, busy, modCtl, modChan, Device.chan, Eight.set, Eight.get, base, State.reset,
    Device.afterReset, Eight.build, Channel.default, Controller.default, Checker.default, applied, tracking, sweeping, sweepTask,
    trackTask, endsSelected]

/-- The part with channel 1's ending between its two fills, and the host's write of its ring to be taken next. -/
def betweenFills : State :=
  { pending := [.ringBodyWordWrite 1 15 14 7]
    dev := { busy with ending := some { chan := 1, summary := .point point3, closing := .halt .signal false } } }

theorem witness_StatesRuleKept :
    (statesRule busy ∧ ∃ t, step { pending := [.stop 1], dev := busy } = .next t)
      ∧ statesRule betweenFills.dev ∧ endingRule betweenFills ∧ ∃ t, step betweenFills = .next t :=
  ⟨⟨⟨busy_chanRule, fun h => absurd h (by decide), fun h => absurd h (by decide)⟩, _, rfl⟩,
    ⟨busy_chanRule, fun h => absurd h (by decide), fun h => absurd h (by decide)⟩, by intro e h; cases h; decide, _, rfl⟩

theorem groupsRule_base : groupsRule base := by
  have h0 : ∀ g : Grp, base.group g = Group.default := by intro g; fin_cases g <;> rfl
  refine ⟨fun g h c hg _ => ?_, fun g c hl => ?_, fun g hs => ?_, fun g _ => ?_⟩
  · rw [h0] at hg; simp [Group.default, inMask] at hg
  · rw [h0] at hl; cases hl
  · rw [h0] at hs; exact absurd rfl hs
  · rw [h0]; exact ⟨rfl, rfl, rfl, rfl⟩

/-- The membership rules hold with group 3 of channels 0 and 1 at rest, and with it running. -/
theorem groupsRule_paired (f : Group → Group) (hm : ∀ x, (f x).members = x.members) (hl : ∀ x, (f x).lead = x.lead)
    (hi : ∀ x, (f x).state = .idle → f x = x) (d : Device) (hg : d.groups = base.groups) : groupsRule (paired 3 f d) := by
  have hgr : ∀ g, (paired 3 f d).group g =
      if g = 3 then f { (base.group 3) with members := 3, lead := some 0 } else base.group g := fun g => by
    have e : ∀ h, d.group h = base.group h := fun h => by simp only [Device.group, hg]
    simp only [paired, modGroup_group, e]
  have hb := groupsRule_base
  have h0 : ∀ g : Grp, (base.group g).members = 0 ∧ (base.group g).lead = none := by
    intro g; fin_cases g <;> exact ⟨rfl, rfl⟩
  refine ⟨fun g h c h1 h2 => ?_, fun g c h1 => ?_, fun g h1 => ?_, fun g h1 => ?_⟩
  · rw [hgr] at h1 h2
    split at h1 <;> split at h2
    · rw [‹g = 3›, ‹h = 3›]
    · rw [(h0 h).1] at h2; simp [inMask] at h2
    · rw [(h0 g).1] at h1; simp [inMask] at h1
    · rw [(h0 g).1] at h1; simp [inMask] at h1
  · rw [hgr] at h1 ⊢
    split at h1
    · next e => subst e; rw [hl] at h1; cases h1; rw [if_pos rfl, hm]; decide
    · rw [(h0 g).2] at h1; cases h1
  · rw [hgr] at h1 ⊢
    split
    · rw [hl]; rfl
    · next e => rw [if_neg e] at h1; exact hb.2.2.1 g h1
  · rw [hgr] at h1 ⊢
    split
    · next e =>
      rw [if_pos e] at h1
      rw [hi _ h1]
      decide
    · next e => rw [if_neg e] at h1; exact hb.2.2.2 g h1

/-- Group 3 running a point, its members 0 and 1 taking part. -/
def groupState (t : GroupTask) (k0 k1 : Task) : State :=
  st fun d => paired 3 (running t) (modCtl 1 (inGroup k1) (modCtl 0 (inGroup k0) d))

theorem groupState_rule (t : GroupTask) (k0 k1 : Task) : groupsRule (groupState t k0 k1).dev :=
  groupsRule_paired (running t) (fun _ => rfl) (fun _ => rfl) (fun _ h => by simp [running] at h) _ rfl

theorem witness_GroupsRuleKept :
    groupsRule (groupState .point .hold .hold).dev
      ∧ ∃ t, step { (groupState .point .hold .hold) with pending := [.stop 0] } = .next t := ⟨groupState_rule _ _ _, _, rfl⟩

theorem witness_FrontsInRangeKept :
    frontsInRange busy ∧ ∃ t, step { pending := [.walkFetch 1], dev := busy } = .next t := by
  refine ⟨fun c => ?_, _, rfl⟩
  fin_cases c <;> exact ⟨by decide, trivial⟩

/-- A monitor at the edge of its inequalities: 32 bit errors in one word. -/
def fullWord : Monitor := { words := 1, bits := 32, errored := 1 }

theorem witness_MonitorsAndRefDividerKept :
    (∃ t, step { State.reset with pending := [.snapshot] } = .next t) ∧ monitorRule fullWord ∧ monitorsRule base
      ∧ refDividerRule base := by
  refine ⟨⟨_, rfl⟩, fun _ _ _ => by decide, fun c => ?_, by decide, by decide⟩
  fin_cases c <;> exact ⟨fun _ _ _ => by decide, fun _ _ _ => by decide⟩

/-! ### Witnesses: resets and channel commands -/

theorem witness_EndOfResetLeavesResetValues :
    State.reset.dev.held = false ∧ (st fun d => { d with held := true }).dev.held = true
      ∧ (st fun d => { d with held := true }).dev.host.waiting = []
      ∧ ∃ u, exec (.endOfReset true 3 true)
          (st fun d => { d with held := true, host := { d.host with waiting := [.write 0x0006 255] } }) = .next u :=
  ⟨rfl, rfl, rfl, _, rfl⟩

/-- For each command that can be refused, a state in which one of its conditions holds. -/
theorem witness_RefusedCommandChangesStatusOnly :
    groupsRule base ∧ base.held = false ∧ (base.ctl 7).message = none
      ∧ refusalOf (modCtl 7 applied base) 7 .enable = some .badState ∧ refusalOf base 7 .startSweep = some .badState
      ∧ refusalOf base 7 .startTrack = some .badState ∧ refusalOf base 7 .single = some .badState
      ∧ refusalOf base 7 .apply = some .badState ∧ refusalOf base 7 .stop = some .badState
      ∧ refusalOf base 7 .abort = some .badState ∧ refusalOf base 7 .clearHalt = some .badState
      ∧ refusalOf base 7 .clearCounters = some .badState
      ∧ refusalOf (modCtl 7 (fun k => { applied k with command := 128 }) base) 7 .apply = some .badArg :=
  ⟨groupsRule_base, by decide⟩

theorem witness_CommandWriteReachesSelectedChannels :
    base.held = false ∧ base.host.pageMask ≠ 0 ∧ namesCommand 0 = false ∧ namesCommand 12 = false ∧ namesCommand 0x0100 = false
      ∧ codeNat 1 = (commandCode .enable).toNat ∧ codeNat 0x0B = (commandCode .resetChannel).toNat
      ∧ codeNat 0xFF0B = (commandCode .resetChannel).toNat := by
  decide

theorem witness_EnablePowersTheChannel :
    base.held = false ∧ (base.ctl 7).state = .off ∧ (base.chan 7).chk.state = .off ∧ preloadActive base = false
      ∧ base.time.present = true := by
  decide

theorem busy_noEndHanded (c : Chan) : noEndHanded (busy.ctl c) := by
  have h : ∀ c, (busy.ctl c).message = none := by decide
  intro m e
  rw [h c] at e
  cases e

theorem witness_DisablePowersDown :
    busy.held = false ∧ (∀ c, chanRule (busy.chan c)) ∧ (∀ c, runningGroup busy c = none) ∧ (busy.ctl 7).state = .off
      ∧ (busy.ctl 0).state = .applied ∧ (busy.ctl 3).state = .halted ∧ busy.time.present = true
      ∧ ((modCtl 4 (fun k => { k with state := .idle }) busy).ctl 4).state = .idle
      ∧ (busy.ctl 1).state = .sweep ∧ (busy.ctl 2).state = .track ∧ ∀ c, noEndHanded (busy.ctl c) :=
  ⟨rfl, busy_chanRule, by decide, by decide, by decide, by decide, by decide, by decide, by decide, by decide, busy_noEndHanded⟩

/-- DISABLE and RESET_CHANNEL of the lead of a running group and of another member, the latter with a copy on its way, past the
check and in it. -/
theorem witness_DisableAndResetInAGroup :
    ∀ c ∈ [(0 : Chan), 1], ∀ t ∈ [GroupTask.point, .check (.judged .pass 127)],
      let d := modCtl 1 (fun k => { k with message := some (.copy copy3) }) (groupState t .hold .hold).dev
      d.held = false ∧ noEndHanded (d.ctl c) ∧ (d.ctl c).state ≠ .off ∧ runningGroup d c = some 3 := by
  intro c hc t ht
  have hm : (match ((modCtl 1 (fun k => { k with message := some (.copy copy3) }) (groupState t .hold .hold).dev).ctl c).message with
      | some (.copy _) => true
      | some _ => false
      | none => true) = true := by
    revert c t; decide
  refine ⟨rfl, fun m e => ?_, ?_⟩
  · rw [e] at hm
    cases m <;> first | exact ⟨_, rfl⟩ | cases hm
  · revert c t; decide

theorem witness_ResetChannelResetsTheChannel :
    busy.held = false ∧ (groupState .point .hold .hold).dev.held = false ∧ (∀ c, noEndHanded (busy.ctl c))
      ∧ (∀ c, runningGroup busy c = none) ∧ (busy.ctl 7).state = .off ∧ (busy.ctl 1).state ≠ .off :=
  ⟨rfl, rfl, busy_noEndHanded, by decide⟩

/-- Two idle channels in group 3. -/
def readyGroup : Device :=
  paired 3 id (modCtl 1 (fun k => { k with state := .idle }) (modCtl 0 (fun k => { k with state := .idle }) base))

theorem readyGroup_rule : groupsRule readyGroup := groupsRule_paired id (fun _ => rfl) (fun _ => rfl) (fun _ _ => rfl) _ rfl

theorem witness_StartSweepEntersCheck :
    groupsRule (modCtl 7 applied base) ∧ base.held = false ∧ refusalOf (modCtl 7 applied base) 7 .startSweep = none
      ∧ isMember (modCtl 7 applied base) 7 = false :=
  ⟨groupsRule_base, by decide⟩

theorem witness_LeadStartsItsGroup :
    groupsRule readyGroup ∧ readyGroup.held = false ∧ refusalOf readyGroup 0 .startSweep = none
      ∧ inMask (readyGroup.group 3).members 0 = true :=
  ⟨readyGroup_rule, by decide⟩

theorem witness_StartTrackEntersWait :
    groupsRule (modCtl 7 applied base) ∧ base.held = false ∧ refusalOf (modCtl 7 applied base) 7 .startTrack = none :=
  ⟨groupsRule_base, by decide⟩

/-- Channel 7 in APPLIED with an argument of 0 or of 127. -/
def argued (v : BusWord) (d : Device) : Device := modCtl 7 (fun k => { applied k with command := v }) d

theorem witness_ApplyFetchesAndApplies :
    groupsRule (argued 127 (withEntry 127 base)) ∧ refusalOf (argued 127 (withEntry 127 base)) 7 .apply = none
      ∧ ((argued 127 (withEntry 127 base)).ctl 7).command.toNat = (127 : Idx).val
      ∧ fetches (argued 127 (withEntry 127 base)) 127 = true
      ∧ refusalOf (argued 0 (withBadEntry 0 base)) 7 .apply = none
      ∧ ((argued 0 (withBadEntry 0 base)).ctl 7).command.toNat = (0 : Idx).val
      ∧ fetches (argued 0 (withBadEntry 0 base)) 0 = false :=
  ⟨groupsRule_base, by decide +kernel⟩

theorem witness_SingleBeginsItsPoint :
    groupsRule (argued 127 (withEntry 127 base)) ∧ refusalOf (argued 127 (withEntry 127 base)) 7 .single = none
      ∧ ((argued 127 (withEntry 127 base)).ctl 7).command.toNat = (127 : Idx).val
      ∧ fetches (argued 127 (withEntry 127 base)) 127 = true
      ∧ refusalOf (argued 0 (withBadEntry 0 base)) 7 .single = none
      ∧ ((argued 0 (withBadEntry 0 base)).ctl 7).command.toNat = (0 : Idx).val
      ∧ fetches (argued 0 (withBadEntry 0 base)) 0 = false :=
  ⟨groupsRule_base, by decide +kernel⟩

theorem witness_StopBySoloPhase :
    (∀ t ∈ [Task.check (.judged .pass 127), .walk 127, .singleReturn 127],
        let s := ctlAt 7 (sweeping t)
        s.dev.held = false ∧ (s.dev.ctl 7).message = none ∧ runningGroup s.dev 7 = none ∧ (s.dev.ctl 7).state = .sweep)
      ∧ (∃ p, ((ctlAt 7 (sweeping (.check (.judged .pass 127)))).dev.ctl 7).task = .check p)
      ∧ (let k := (ctlAt 7 fun k => { sweeping (.walk 0) k with current := none }).dev.ctl 7
         k.state = .sweep ∧ k.origin ≠ .single ∧ k.current = none
           ∧ k.window = some { first := 0, last := 127 } ∧ k.task = .walk ({ first := 0, last := 127 } : Window).first)
      ∧ (let k := (ctlAt 7 (sweeping (.walk 127))).dev.ctl 7
         k.task.inCheck = false ∧ k.current ≠ none)
      ∧ ((ctlAt 7 (tracking .wait)).dev.ctl 7).state = .track :=
  ⟨by decide, ⟨_, rfl⟩, by decide, by decide, by decide⟩

theorem witness_AbortEndsTheSweep :
    (∀ t ∈ [Task.walk 127, .dwell copy3, .record (.point point3) .sweepPoint, .selectedRefetch 127 0],
      let s := ctlAt 7 (sweeping t)
      s.dev.held = false ∧ (s.dev.ctl 7).message = none ∧ runningGroup s.dev 7 = none ∧ (s.dev.ctl 7).state = .sweep
        ∧ (s.dev.ctl 7).origin = .sweep ∧ (s.dev.ctl 7).group = none ∧ (s.dev.ctl 7).task.inCheck = false)
      ∧ (let s := ctlAt 7 (sweeping (.check (.reading 127 none)))
         (s.dev.ctl 7).message = none ∧ runningGroup s.dev 7 = none ∧ (s.dev.ctl 7).state = .sweep
           ∧ (s.dev.ctl 7).task.inCheck = true) := by
  decide

theorem witness_AbortOfSingleReturns :
    (∀ t ∈ [Task.singleReturn 127, .settle copy3, .lockwait copy3, .dwell copy3, .record (.point point3) .single],
      let s := ctlAt 7 fun k => { sweeping t k with origin := .single }
      s.dev.held = false ∧ (s.dev.ctl 7).message = none ∧ runningGroup s.dev 7 = none ∧ (s.dev.ctl 7).state = .sweep
        ∧ (s.dev.ctl 7).origin = .single ∧ (s.dev.ctl 7).task.inCheck = false)
      ∧ ∀ t ∈ [Task.wait, .candidateFetch, .dwell copy3, .closeFetch],
          let s := ctlAt 7 (tracking t)
          s.dev.held = false ∧ (s.dev.ctl 7).message = none ∧ (s.dev.ctl 7).state = .track := by
  decide

/-- A halted channel 7 while REFCLK is absent. -/
def halted7 : State :=
  st fun d => modCtl 7 (fun k => { k with state := .halted }) { d with time := { d.time with present := false } }

theorem witness_ClearHaltBringsIdle :
    halted7.dev.held = false ∧ (halted7.dev.ctl 7).state = .halted ∧ (halted7.dev.ctl 0).state ≠ .halted
      ∧ halted7.dev.time.present = false ∧ preloadActive halted7.dev = false ∧ runningGroup halted7.dev 7 = none
      ∧ ∃ t, exec (.clearHalt 7) halted7 = .next t :=
  ⟨rfl, by decide, by decide, by decide, by decide, by decide, _, rfl⟩

theorem witness_ClearCountersZeroesTheMonitor :
    halted7.dev.held = false ∧ (halted7.dev.ctl 0).state = .off ∧ (halted7.dev.ctl 7).state ≠ .off := by
  decide

/-! ### Witnesses: host writes -/

theorem witness_RowsAreRegisterWrites :
    base.held = false ∧ hostAccessOf .snapshot = some (.write (2 * (0x004 : BitVec 12).toNat) 1)
      ∧ hostAccessOf (.ringBodyWordWrite 7 15 14 5) = some (.write (2 * (0xBFF : BitVec 12).toNat) 5)
      ∧ hostAccessOf (.checkerModeWrite .fixedPolarity 1) = some (.write (2 * (0x0A7 : BitVec 12).toNat) 1) := by
  decide

/-- The part with an empty Page Mask. -/
def unmasked : Device := { base with host := { base.host with pageMask := 0 } }

theorem witness_PageMaskZeroDropsTheWrite :
    unmasked.held = false ∧ unmasked.host.pageMask = 0
      ∧ ([(0x080 : BitVec 12), 0x0FF].all fun a => decide (0x0100 ≤ 2 * a.toNat) && decide (2 * a.toNat < 0x0200)) = true := by
  decide +kernel

theorem witness_WritesDroppedDuringPreload :
    (preloading .idle base).held = false ∧ preloadActive (preloading .idle base) = true
      ∧ (preloading .idle base).host.pageMask ≠ 0
      ∧ ([(0x009 : BitVec 12), 0x010, 0x027, 0x040, 0x05D, 0x087, 0x0A7, 0x200, 0xBFF].all fun a =>
          droppedInPreload (2 * a.toNat)) = true := by
  decide +kernel

theorem witness_RegisterWritesStoreTheirBits :
    base.held = false ∧ base.host.pageMask ≠ 0 ∧ preloadActive base = false
      ∧ keptBits (2 * (0x087 : BitVec 12).toNat) = some 0x007F ∧ keptBits (2 * (0x09B : BitVec 12).toNat) = some 1
      ∧ 2 * (0x003 : BitVec 12).toNat = 0x0006 ∧ 2 * (0x005 : BitVec 12).toNat = 0x000A
      ∧ 2 * (0x081 : BitVec 12).toNat = 0x0102
      ∧ 2 * (0x010 : BitVec 12).toNat = 0x0020 + 2 * (0 : Fin 8).val
      ∧ 2 * (0x017 : BitVec 12).toNat = 0x0020 + 2 * (7 : Fin 8).val
      ∧ 2 * (0x045 : BitVec 12).toNat = 0x008A + 0x10 * (0 : Grp).val
      ∧ 2 * (0x05D : BitVec 12).toNat = 0x008A + 0x10 * (3 : Grp).val
      ∧ ([(0x000 : BitVec 12), 0x028, 0x03F, 0x042, 0x05F, 0x060, 0x0AB, 0x1FF, 0xC00, 0xFFF].all fun a =>
          ignoredOffset (2 * a.toNat)) = true := by
  decide +kernel

/-- No offset of the device registers or of the channel page falls under two clauses of `RegisterWritesStoreTheirBits`. -/
theorem test_register_clauses_exclude_each_other :
    ((List.range 256).all fun a =>
      let o := 2 * a
      let hits := [(keptBits o).isSome, o == 0x0006, o == 0x000A, o == 0x0102, decide (0x0020 ≤ o ∧ o ≤ 0x002E),
        decide (0x0080 ≤ o ∧ o < 0x00C0) && o % 16 == 10, ignoredOffset o]
      decide ((hits.filter id).length ≤ 1)) = true := by
  decide +kernel

theorem witness_RamWritesAndHandbacks :
    base.held = false ∧ preloadActive base = false ∧ (base.ctl 7).handbacks = 0
      ∧ base.ending = none ∧ betweenFills.dev.held = false ∧ preloadActive betweenFills.dev = false
      ∧ betweenFills.dev.ending = some { chan := 1, summary := .point point3, closing := .halt .signal false }
      ∧ (let s := ctlAt 7 fun k => { k with handbacks := 1 }
         (s.dev.ctl 7).handbacks ≠ 0 ∧ (s.dev.ctl 7).task.phase ≠ .stall)
      ∧ (let s := ctlAt 7 fun k => { sweeping (.stall (.point point3) .sweepPoint) k with handbacks := 1 }
         (s.dev.ctl 7).handbacks ≠ 0 ∧ (s.dev.ctl 7).task = .stall (.point point3) .sweepPoint
           ∧ granted s.dev (reqChan 7) = true)
      ∧ (let s := st fun d =>
           modCtl 0 (fun k => { sweeping (.walk 5) k with seq := 1 })
             (modCtl 7 (fun k => { sweeping (.stall (.point point3) .sweepPoint) k with handbacks := 1 }) d)
         granted s.dev (reqChan 7) = false) := by
  decide

theorem witness_EventWritesAndTheInterruptLine :
    base.held = false ∧ base.host.pageMask ≠ 0 ∧ preloadActive base = false := by
  decide

theorem witness_SnapshotCopiesNamedChannels : base.held = false := rfl

theorem witness_DeviceCommandsTakenOrRefused :
    base.held = false ∧ preloadActive base = false ∧ (∀ c, (base.ctl c).state = .off ∨ (base.ctl c).state = .idle)
      ∧ (¬ (preloadActive busy = false ∧ ∀ c, (busy.ctl c).state = .off ∨ (busy.ctl c).state = .idle))
      ∧ preloadActive (preloading .idle base) = true
      ∧ namesDeviceCommand 0 = false ∧ namesDeviceCommand 4 = false ∧ codeNat 1 = 1 ∧ codeNat 2 = 2 ∧ codeNat 0xFF03 = 3 := by
  decide

theorem witness_MembersAndLeadWrites :
    base.held = false ∧ preloadActive base = false ∧ (base.group 3).state = .idle
      ∧ (∀ h, h ≠ 3 → ∀ c, inMask (base.group h).members c = true → inMask (255 : BitVec 8) c = false)
      ∧ (¬ ((readyGroup.group 0).state = .idle
          ∧ ∀ h, h ≠ 0 → ∀ c, inMask (readyGroup.group h).members c = true → inMask (1 : BitVec 8) c = false))
      ∧ ((readyGroup.group 3).state = .idle
          ∧ (8 ≤ (1 : BusWord).toNat % 16 ∨ (readyGroup.group 3).members.getLsbD ((1 : BusWord).toNat % 16) = true))
      ∧ ((base.group 0).state = .idle ∧ 8 ≤ (8 : BusWord).toNat % 16)
      ∧ ¬ ((base.group 0).state = .idle
          ∧ (8 ≤ (7 : BusWord).toNat % 16 ∨ (base.group 0).members.getLsbD ((7 : BusWord).toNat % 16) = true)) := by
  decide

theorem witness_SourceWrites :
    base.held = false ∧ preloadActive base = false
      ∧ base.lanes.checkerSource.get 7 = ⟨(0xFFFF : BusWord).toNat % 8, by decide⟩
      ∧ base.lanes.checkerSource.get 7 ≠ ⟨(0 : BusWord).toNat % 8, by decide⟩ := by
  decide

theorem witness_PatternRegisterWrites : base.held = false ∧ base.host.pageMask ≠ 0 ∧ preloadActive base = false := by
  decide

/-! ### Witnesses: lanes and time -/

theorem witness_WordTimesSendAndAdvance :
    base.held = false ∧ base.time.present = true ∧ halted7.dev.held = false ∧ halted7.dev.time.present = false
      ∧ base.time.prescaler + 1 < base.time.tickLength ∧ ¬ (lastEdge base).time.prescaler + 1 < (lastEdge base).time.tickLength
      ∧ (Lfsr.l7, 7, 6) ∈ [(Lfsr.l7, 7, 6), (.l15, 15, 14), (.l23, 23, 18), (.l31, 31, 28)] ∧ 31 < 32 := by
  decide

/-- Channel 7 idle with its lane active, its checker `k`. -/
def heard7 (f : Checker → Checker) : State :=
  st fun d =>
    modChan 7 (fun k => { k with ctl := { k.ctl with state := .idle }, chk := f k.chk })
      { d with lanes := { d.lanes with activity := Eight.build fun _ => true } }

/-- The word that follows all ones in LFSR-7. -/
def nextL7 : LaneWord := 0x020C28F2

theorem witness_ReceivedWordsReachCheckers :
    (¬ (base.time.present = true ∧ (base.ctl 7).state ≠ .off ∧ base.lanes.activity.get 7 = true))
      ∧ (let s := heard7 fun x => { x with state := .search, previous := some (BitVec.allOnes 32), counts := Eight.build fun _ => 15 }
         s.dev.held = false ∧ s.dev.time.present = true ∧ (s.dev.ctl 7).state ≠ .off ∧ s.dev.lanes.activity.get 7 = true
           ∧ s.dev.lanes.checkerSource.get 7 = 7 ∧ s.dev.lanes.checkerSource.get 0 ≠ 7
           ∧ (s.dev.chan 7).chk.state = .search ∧ (s.dev.chan 7).chk.mode = .auto
           ∧ predict (candidatePattern 0) (candidateInverted 0) (BitVec.allOnes 32) = nextL7
           ∧ (s.dev.chan 7).chk.counts.get 0 + 1 = 16 ∧ nextL7 ≠ 0 ∧ nextL7 ≠ BitVec.allOnes 32)
      ∧ (let s := heard7 fun x =>
           { x with state := .locked, detected := .lfsr .l7, errorRun := 31, point := { x.point with target := some (1, some 1) } }
         (s.dev.chan 7).chk.state = .locked ∧ (s.dev.chan 7).chk.detected ≠ .none ∧ (s.dev.chan 7).chk.errorRun = 31
           ∧ (s.dev.chan 7).chk.point.target = some (1, some 1))
      ∧ (let s := heard7 fun x =>
           { x with state := .search, mode := .user, counts := { x.counts with c0 := 15 } }
         (s.dev.chan 7).chk.state = .search ∧ (s.dev.chan 7).chk.mode = .user
           ∧ (s.dev.chan 7).gen.userLength = 1 ∧ (s.dev.chan 7).gen.userWords.get 0 = 0
           ∧ (s.dev.chan 7).chk.counts.get 0 + 1 = 16)
      ∧ ((heard7 id).dev.chan 7).chk.state = .off ∧ ((heard7 id).dev.chan 7).chk.point.target = none := by
  decide +kernel

theorem witness_TimebaseAccessesAndTicks :
    base.held = false ∧ preloadActive base = false ∧ base.time.present = true ∧ halted7.dev.held = false
      ∧ halted7.dev.time.present = false := by
  decide

theorem witness_RefclkLossAndReturn :
    base.held = false ∧ base.time.present = true ∧ halted7.dev.time.present = false ∧ (base.chan 7).chk.refReturn = false
      ∧ (let s := heard7 fun x => { x with refReturn := true }
         (s.dev.chan 7).chk.refReturn = true ∧ s.dev.time.present = true) := by
  decide

/-! ### Witnesses: the point cycle, plans, rings and tracks -/

theorem witness_PointCycleHappenings :
    (let k := (ctlAt 7 fun k => { sweeping (.dwell copy3) k with inbox := [.closure true, .lockLost] }).dev.chan 7
     k.ctl.task = .dwell copy3 ∧ k.ctl.inbox = .closure true :: [.lockLost])
      ∧ (let k := (ctlAt 7 fun k => { tracking (.dwell copy3) k with inbox := [.lockLost] }).dev.chan 7
         k.ctl.task = .dwell copy3 ∧ k.ctl.inbox = .lockLost :: [])
      ∧ (let k := (ctlAt 7 fun k =>
           { sweeping (.lockwait copy3) k with inbox := [.lockGained], timer := some { kind := .lock, left := 0 } }).dev.chan 7
         k.ctl.task = .lockwait copy3 ∧ k.ctl.inbox = .lockGained :: [] ∧ k.ctl.timer = some { kind := .lock, left := 0 })
      ∧ (let k := (ctlAt 7 fun k => { sweeping (.settle copy3) k with timer := some { kind := .settle, left := 0 } }).dev.chan 7
         k.ctl.task = .settle copy3 ∧ k.ctl.timer = some { kind := .settle, left := 0 })
      ∧ (let k := (ctlAt 7 fun k => { tracking .resettle k with timer := some { kind := .settle, left := 0 } }).dev.chan 7
         k.ctl.task = .resettle ∧ k.ctl.timer = some { kind := .settle, left := 0 }) := by
  decide

theorem witness_SignalAndRefclkLossHalt :
    (∀ c, chanRule (busy.chan c)) ∧ busy.held = false ∧ (∀ c, (busy.ctl c).message = none) ∧ (∀ c, runningGroup busy c = none)
      ∧ ((busy.ctl 1).state = .sweep ∧ (busy.ctl 1).task.inCheck = false) ∧ (busy.ctl 2).state = .track
      ∧ (busy.ctl 0).state = .applied ∧ (busy.ctl 3).state = .halted ∧ (busy.ctl 7).refLoss = false
      ∧ ((modCtl 1 (fun k => { k with inbox := [.signalLost], refLoss := true }) busy).ctl 1).inbox = .signalLost :: []
      ∧ ((modCtl 1 (fun k => { k with inbox := [.signalLost], refLoss := true }) busy).ctl 1).refLoss = true
      ∧ ((modCtl 1 (sweeping (.check (.judged .pass 127))) busy).ctl 1).task.inCheck = true
      ∧ ringWriteNext 7 losing7.pending = true ∧ (losing7.dev.ctl 7).inbox = .signalLost :: []
      ∧ ∀ c ∈ [(0 : Chan), 1],
          let d := modCtl c (fun k => { k with inbox := [.signalLost], refLoss := true })
            (groupState .point (.dwell copy3) (.dwell copy3)).dev
          d.held = false ∧ (d.ctl c).message = none ∧ runningGroup d c = some 3 ∧ (d.ctl c).group = some 3
            ∧ (d.ctl c).state = .sweep ∧ (d.ctl c).inbox = .signalLost :: [] ∧ (d.ctl c).refLoss = true
            ∧ (d.ctl c).task.phase ≠ .none ∧ (d.ctl c).task.inCheck = false ∧ (d.group 3).lead = some 0 ∧ (d.group 3).begun = true :=
  ⟨busy_chanRule, by decide⟩

theorem witness_PlanChecksJudgeTheWindow :
    (let s := ctlAt 7 (sweeping (.check (.reading 127 none)))
     s.dev.held = false ∧ (s.dev.ctl 7).task = .check (.reading 127 none)
       ∧ (s.dev.ctl 7).window = some { first := 0, last := 127 } ∧ granted s.dev (reqChan 7) = true)
      ∧ (let s := ctlAt 7 fun k =>
           { sweeping (.check (.judged .pass 127)) k with prior := some { applied := some 3, window := none } }
         (s.dev.ctl 7).task = .check (.judged .pass 127) ∧ (s.dev.ctl 7).prior = some { applied := some 3, window := none })
      ∧ ((ctlAt 7 (sweeping (.check (.judged .order 0)))).dev.ctl 7).prior = none := by
  decide +kernel

theorem witness_SweepFetches :
    (let s := st fun d => modCtl 7 (sweeping (.walk 127)) (withEntry 127 d)
     s.dev.held = false ∧ granted s.dev (reqChan 7) = true ∧ (s.dev.ctl 7).task = .walk 127
       ∧ (s.dev.ctl 7).window = some { first := 0, last := 127 } ∧ (readEntry s.dev 127).skip = false
       ∧ settingsInRange (readEntry s.dev 127).settings = true
       ∧ (s.dev.dwell.get (readEntry s.dev 127).dwellClass).toNat * 1024 ≠ 0)
      ∧ (let d := withSkip 126 (withSkip 127 base)
         (readEntry d 126).skip = true ∧ (readEntry d 127).skip = true ∧ (126 : Idx).val < (127 : Idx).val)
      ∧ (let d := withBadEntry 0 base
         (readEntry d 0).skip = false ∧ settingsInRange (readEntry d 0).settings = false)
      ∧ (let d : Device := { withEntry 0 base with dwell := base.dwell }
         (readEntry d 0).skip = false ∧ settingsInRange (readEntry d 0).settings = true
           ∧ (d.dwell.get (readEntry d 0).dwellClass).toNat * 1024 = 0)
      ∧ (let s := st fun d => modCtl 7 (sweeping (.selectedRefetch 127 5)) (withBadEntry 127 d)
         granted s.dev (reqChan 7) = true ∧ (s.dev.ctl 7).task = .selectedRefetch 127 5 ∧ fetches s.dev 127 = false)
      ∧ (let s := st fun d => modCtl 7 (fun k => { sweeping (.singleReturn 127) k with origin := .single }) (withEntry 127 d)
         granted s.dev (reqChan 7) = true ∧ (s.dev.ctl 7).task = .singleReturn 127 ∧ (s.dev.ctl 7).origin = .single
           ∧ fetches s.dev 127 = true) := by
  decide +kernel

theorem witness_FillsWriteTheRecord :
    (let s := ctlAt 7 (sweeping (.record (.point point3) .sweepPoint))
     s.dev.held = false ∧ granted s.dev (reqChan 7) = true ∧ (s.dev.ctl 7).task = .record (.point point3) .sweepPoint)
      ∧ ((ctlAt 7 (sweeping (.stall (.point point3) .sweepPoint))).dev.ctl 7).task = .stall (.point point3) .sweepPoint := by
  decide +kernel

theorem witness_WorkGoesOnAfterARecord :
    (let k := ((ctlAt 7 fun k => { sweeping .hold k with stopping := true, current := some 127 }).dev.chan 7).ctl
     k.stopping = true ∧ k.current = some 127 ∧ k.window = some { first := 0, last := 127 })
      ∧ (let k := ((ctlAt 7 fun k =>
           { tracking .wait k with
             cycle := { list := [3, 4], position := 0, kept := [] }
             prior := some { applied := some 3, window := none } }).dev.chan 7).ctl
         k.stopping = false ∧ k.cycle.position + 1 < k.cycle.list.length
           ∧ k.prior = some { applied := some 3, window := none }) := by
  decide

theorem witness_PointsAreScored :
    ((ctlAt 7 (sweeping (.dwell copy3))).dev.chan 7).ctl.origin = .sweep
      ∧ ((ctlAt 7 (sweeping (.dwell copy3))).dev.chan 7).ctl.group = none
      ∧ (let x := { Selection.cleared with
           usable := 1, best := some { index := 127, bits := 0, words := 1024 }, longestFirst := 127, longestLength := 1 }
         0 < x.usable ∧ x.best = some { index := 127, bits := 0, words := 1024 } ∧ 0 < x.longestLength
           ∧ x.longestFirst.val + x.longestLength ≤ 128) := by
  decide

theorem witness_TrackCycleBegins :
    (let k := (ctlAt 7 fun k => { tracking .wait k with timer := some { kind := .interval, left := 0 } }).dev.ctl 7
     k.task = .wait ∧ k.timer = some { kind := .interval, left := 0 } ∧ k.current = some 3
       ∧ k.window = some { first := 0, last := 127 } ∧ k.anchor = some 3)
      ∧ (let s := ctlAt 7 (tracking (.listing [4] [3, 2]))
         s.dev.held = false ∧ (s.dev.ctl 7).task = .listing (4 :: []) [3, 2] ∧ granted s.dev (reqChan 7) = true) := by
  decide +kernel

theorem witness_TrackFetches :
    (let s := ctlAt 7 (tracking .candidateFetch)
     s.dev.held = false ∧ granted s.dev (reqChan 7) = true ∧ (s.dev.ctl 7).origin = .track ∧ (s.dev.ctl 7).task = .candidateFetch)
      ∧ (let s := st fun d => modCtl 7 (tracking (.reapply 127)) (withEntry 127 d)
         granted s.dev (reqChan 7) = true ∧ (s.dev.ctl 7).task = .reapply 127 ∧ (s.dev.ctl 7).current = some 3
           ∧ fetches s.dev 127 = true)
      ∧ (let s := st fun d => modCtl 7 (tracking .closeFetch) (withBadEntry 3 d)
         granted s.dev (reqChan 7) = true ∧ (s.dev.ctl 7).task = .closeFetch ∧ (s.dev.ctl 7).current = some 3
           ∧ fetches s.dev 3 = false) := by
  decide +kernel

/-- Measurements of a cycle: the current index with 5 bit errors, and two others. -/
def measured (complete : Bool) : List Kept :=
  [{ index := 3, complete := complete, bits := 5, words := 1024 }, { index := 2, complete := complete, bits := 4, words := 1024 },
    { index := 4, complete := complete, bits := 4, words := 1024 }]

theorem witness_TrackDecidesItsCycle :
    (∀ b ∈ [true, false],
        let k := (ctlAt 7 fun k => { tracking .wait k with cycle := { list := [3, 2, 4], position := 2, kept := measured b } }).dev.ctl 7
        k.stopping = false ∧ k.cycle.list.length ≤ k.cycle.position + 1
          ∧ k.cycle.kept = { index := 3, complete := b, bits := 5, words := 1024 } :: (measured b).tail ∧ k.current = some 3
          ∧ k.origin = .track)
      ∧ (measured true).tail = [] ++ { index := 2, complete := true, bits := 4, words := 1024 }
          :: [{ index := 4, complete := true, bits := 4, words := 1024 }]
      ∧ ∀ x ∈ (measured false).tail, x.complete = false := by
  decide

/-! ### Witnesses: the RAM Arbiter -/

/-- Channel 7 waits for its walk's fetch, and channel 6 has made one write within a happening of its own, after requester `r`. -/
def turnOf6 (r : Requester) : Device :=
  { (ctlAt 7 (sweeping (.walk 127))).dev with
    arbiter := { base.arbiter with lastServed := r, turns := base.arbiter.turns.set 6 1 } }

/-- R180: the turn passes where channel 6 is first in the rotation, and else the waiting channel 7 is served ahead of it. -/
theorem test_turn_keeps_the_rotation :
    (settled (turnOf6 9)).lastServed = 6 ∧ (settled (turnOf6 9)).turns.get 6 = 0 ∧ granted (turnOf6 9) 7 = true
      ∧ (settled (turnOf6 6)).lastServed = 6 ∧ (settled (turnOf6 6)).turns.get 6 = 1 ∧ granted (turnOf6 6) 7 = true := by
  decide

theorem witness_ArbiterServesInRotation :
    (∀ r ∈ [(9 : Requester), 6], granted (turnOf6 r) 7 = true ∧ requesting (turnOf6 r) 7 = true
        ∧ (turnOf6 r).arbiter.turns.get 6 ≠ 0)
      ∧ (firstWaiting (requesting (turnOf6 9)) (turnOf6 9).arbiter = some (reqChan 6))
      ∧ firstWaiting (requesting (turnOf6 6)) (turnOf6 6).arbiter = some (reqChan 7)
      ∧ (turnOf6 6).arbiter.turns.get 7 = 0
      ∧ (let d := (groupState (.walk 127) .memberWait .memberWait).dev
         (d.group 3).halting = false ∧ (d.group 3).task = .walk 127 ∧ d.arbiter.paceRequest = none
           ∧ { d.arbiter with paceRequest := some (3 : Grp) }.paceRequest = some 3)
      ∧ (∀ g, (base.group g).task = .idle) := by
  decide

/-- R180: after a reset the Pace Controller's first request is for the first waiting group from A on, and, with that one last served,
for the next. -/
theorem test_pace_request_rotates :
    (let d := paired 1 (running (.walk 5)) (groupState (.walk 127) .memberWait .memberWait).dev
     (paceRefresh d).arbiter.paceRequest = some 1
       ∧ (paceRefresh { d with arbiter := { d.arbiter with lastGroup := 1 } }).arbiter.paceRequest = some 3) := by
  decide

/-! ### Witnesses: groups -/

theorem witness_StopAndAbortInAGroup :
    (∀ c ∈ [(0 : Chan), 1],
        let s := groupState .point .hold (.dwell copy3)
        s.dev.held = false ∧ (s.dev.ctl c).state = .sweep ∧ (s.dev.ctl c).message = none ∧ runningGroup s.dev c = some 3
          ∧ (s.dev.group 3).lead = some 0 ∧ (s.dev.ctl c).group = some 3 ∧ (s.dev.group 3).begun = true)
      ∧ ((modGroup 3 (fun x => { x with begun := false }) (groupState (.check (.judged .pass 127)) .memberCheck .memberCheck).dev).group
          3).begun = false := by
  decide

/-- A part whose next part grant is the Pace Controller's, for group 3. -/
def paceTurn (t : GroupTask) (f : Device → Device) : Device :=
  let d := f (groupState t .hold .hold).dev
  { d with arbiter := { d.arbiter with lastServed := 7, paceRequest := some 3 } }

theorem witness_PaceControllerGrants :
    (∀ t ∈ [GroupTask.check (.reading 127 none), .walk 127, .selectedRefetch 127],
        let d := paceTurn t id
        d.held = false ∧ (d.group 3).lead = some 0 ∧ granted d 8 = true ∧ d.arbiter.paceRequest = some 3 ∧ (d.group 3).task = t
          ∧ (d.group 3).window = some { first := 0, last := 127 })
      ∧ (let d := paceTurn (.check (.judged .pass 127)) id
         (d.group 3).task = .check (.judged .pass 127) ∧ (d.group 3).halting = false
           ∧ (d.group 3).window = some { first := 0, last := 127 })
      ∧ (let d := modGroup 3 (fun x => { x with window := some { first := 5, last := 4 } }) (paceTurn (.check (.judged .order 5)) id)
         (d.group 3).task = .check (.judged .order 5) ∧ (d.group 3).window = some { first := 5, last := 4 })
      ∧ (readEntry (paceTurn (.walk 127) (withEntry 127)) 127).skip = false
      ∧ settingsInRange (readEntry (paceTurn (.walk 127) (withEntry 127)) 127).settings = true
      ∧ settingsInRange (readEntry (paceTurn (.walk 127) (withBadEntry 127)) 127).settings = false
      ∧ (readEntry (paceTurn (.walk 127) (withSkip 127)) 127).skip = true := by
  decide +kernel

/-- Figures of a group. -/
def figures0 : Figures := figuresOf Group.default

theorem witness_MembersTakeWhatTheyAreHanded :
    ∀ m ∈ [GroupMessage.copy copy3, .abort figures0, .ending (some copy3) figures0, .ending none figures0,
        .halt (some 127) figures0, .halt none figures0],
      let s : State :=
        { pending := [.tick], dev := modCtl 1 (fun k => { k with message := some m }) (groupState .point .hold .memberWait).dev }
      s.dev.held = false ∧ (s.dev.ctl 1).message = some m ∧ ringWriteNext 1 s.pending = false
        ∧ ringWriteNext 1 [.ringControlWordWrite 1 0 1] = true := by
  decide

/-- Group 3 at a point, its member 1 with a report, the members `m` at the barrier. -/
def atBarrier (m : BitVec 8) : Device :=
  modGroup 3 (fun x => { x with atBarrier := m, barrier := some 0 })
    (modCtl 1 (fun k => { k with report := some { outcome := .complete, bits := 0, words := 1024 } })
      (groupState .point .hold .hold).dev)

theorem witness_BarrierAndHaltingGroups :
    (let d := atBarrier 1
     d.held = false ∧ (d.ctl 1).report = some { outcome := .complete, bits := 0, words := 1024 } ∧ (d.ctl 1).group = some 3
       ∧ (d.group 3).task = .point ∧ inMask (d.group 3).members 1 = true ∧ (d.group 3).current = some 3
       ∧ (d.group 3).window = some { first := 0, last := 127 } ∧ (d.group 3).halting = false
       ∧ (∀ b, inMask (d.group 3).members b = true → inMask ((d.group 3).atBarrier ||| BitVec.ofNat 8 (2 ^ 1)) b = true)
       ∧ (d.group 3).barrier = some 0 ∧ (d.group 3).lead = some 0 ∧ inMask (d.group 3).atBarrier 0 = true)
      ∧ (let d := atBarrier 0
         inMask (d.group 3).atBarrier 0 = false
           ∧ ¬ ∀ b, inMask (d.group 3).members b = true → inMask ((d.group 3).atBarrier ||| BitVec.ofNat 8 (2 ^ 1)) b = true)
      ∧ (groupState (.walk 5) .hold .hold).dev.groupRefLoss = false
      ∧ (let d : Device := { (groupState .point .hold .hold).dev with groupRefLoss := true }
         d.groupRefLoss = true
           ∧ ∀ h, (d.group h).state ≠ .idle → ∃ b, inMask (d.group h).members b = true ∧ (d.ctl b).group = some h)
      ∧ (let d := modCtl 1 (fun k => { k with haltReport := true }) (groupState .point .hold .hold).dev
         (d.ctl 1).haltReport = true ∧ runningGroup d 1 = some 3)
      ∧ (let d := modCtl 1 (fun k => { k with haltReport := true }) base
         (d.ctl 1).haltReport = true ∧ runningGroup d 1 = none)
      ∧ (let d := modCtl 1 (fun k => { k with haltReport := true, group := none })
           (modCtl 0 (fun k => { k with group := none }) (groupState .point .hold .hold).dev)
         runningGroup d 1 = some 3 ∧ (d.group 3).begun = true ∧ (d.group 3).lead = some 0
           ∧ (modGroup 3 (fun x => { x with begun := false }) d).groups.g3.begun = false
           ∧ ¬ ∃ b, inMask (d.group 3).members b = true ∧ (d.ctl b).group = some 3) := by
  decide +kernel

/-- R89, R115: a member that halts leaves At-Barrier, so the other's report completes no set and the point is not folded. -/
theorem test_halted_member_holds_the_release :
    (let d := takeRefLoss false 1 (writeWord 0x0A00 0 (atBarrier 2))
     (d.ctl 1).state = .halted ∧ (d.ctl 1).haltReport = true ∧ (d.group 3).atBarrier = 0 ∧ (d.group 3).barrier = some 0
       ∧ barrierFull (addReport 0 { outcome := .complete, bits := 0, words := 1024 } (d.group 3)) = false) := by
  decide +kernel

/-- R89, R130: an ejection takes the halt report of its member, so the group halts and releases no barrier. -/
theorem test_ejection_takes_the_halt_report :
    (let d := eject 3 none .idle .none 1 (modCtl 1 (fun k => { k with haltReport := true, group := none }) (atBarrier 1))
     (d.group 3).halting = true ∧ (d.group 3).atBarrier = 1 ∧ (d.group 3).members = 1 ∧ (d.ctl 1).haltReport = false) := by
  decide +kernel

/-! ### Witnesses: the preload -/

/-- The bytes of bus words, low byte first. -/
def bytes (ws : List Nat) : List Byte := ws.flatMap fun w => [BitVec.ofNat 8 w, BitVec.ofNat 8 (w / 256)]

/-- A transfer of `n` bytes of a kind. -/
def transfer (k : TransferKind) (n : Nat) : Transfer := { kind := k, device := 0x53, address := 16, length := n, retries := 0 }

theorem witness_PreloadTransfersAndBlocks :
    (let data := bytes [0xC318, 1, 1, 24, 0, 0, 0, 65536 - 0xC318 - 26]
     (preloading (.transfer (transfer .header 16)) base).preload.work = .transfer (transfer .header 16) ∧ data.length = 16
       ∧ wordSum (wordsOf data) = 0)
      ∧ (let data := bytes [5, 2]
         (preloading (.transfer (transfer .head 4)) base).preload.work = .transfer (transfer .head 4) ∧ data.length = 4)
      ∧ (let head := bytes [2, 16]
         let data := bytes [1, 1, 1, 1, 1, 1, 1, 4095, 65536 - 18 - 7 - 4095]
         (preloading (.transfer (transfer .body 18)) base).preload.work = .transfer (transfer .body 18) ∧ data.length = 18
           ∧ 6 + (wordAt (wordsOf (head ++ data)) 1).toNat ≤ (head ++ data).length
           ∧ skipReasonOf base (wordsOf (head ++ data)) = none)
      ∧ skipReasonOf base (wordsOf (bytes [2, 16, 1, 1, 1, 1, 1, 1, 1, 1, 0])) = some .checksum
      ∧ (preloading .idle base).preload.work = .idle ∧ (bytes [5, 2]).length ≠ (transfer .header 16).length
      ∧ (preloading .between base).preload.work = .between ∧ (bytes [5, 2]).length = 4
      ∧ (let t : Transfer := { transfer .body 18 with retries := 3 }
         (preloading (.transfer t) base).preload.work = .transfer t)
      ∧ (preloading (.retryWait (transfer .body 18)) base).preload.work = .retryWait (transfer .body 18)
      ∧ (let d := preloading (.writing [.entry 127 [0, 0, 0, 0], .control 7 15 1]) base
         d.held = false ∧ d.preload.work = .writing (.entry 127 [0, 0, 0, 0] :: [.control 7 15 1]) ∧ granted d 9 = true)
      ∧ (let d : Device :=
           { preloading (.writing [.control 7 15 1]) base with
             preload := { (preloading (.writing [.control 7 15 1]) base).preload with blockNumber := 1, blockCount := 2 } }
         d.preload.work = .writing (.control 7 15 1 :: []) ∧ granted d 9 = true ∧ d.preload.blockNumber < d.preload.blockCount) := by
  decide +kernel

theorem witness_PreloadHandsItsCommands :
    (let d : Device := { base with preload := { base.preload with start := some { enables := 0x80, starts := 0 } } }
     d.held = false ∧ d.preload.start = some { enables := 0x80, starts := 0 } ∧ inMask (0x80 : BitVec 8) 7 = true)
      ∧ (let d : Device := { base with preload := { base.preload with start := some { enables := 0, starts := 0x80 } } }
         d.preload.start = some { enables := 0, starts := 0x80 } ∧ inMask (0x80 : BitVec 8) 7 = true)
      ∧ base.preload.start = none := by
  decide

end Sys2Proof.Tests
end

section
/-! The selection of a sweep (R56 to R59): the fold of an ended point field by field, and the choice made from it. -/

namespace Sys2Proof.Machine

open Sys2Proof

/-! ### The fold of an ended point (R57, R58) -/

/-- The length of the Current Run once the fold of index `i` has taken its step 1: the run is broken where the walk passed over
an index since Last Point (R58). -/
def carriedRun (i : Idx) (x : Selection) : Nat :=
  if ∃ l, x.lastPoint = some l ∧ l.val + 1 ≠ i.val then 0 else x.runLength

theorem carriedRun_none {i : Idx} {x : Selection} (h : x.lastPoint = none) : carriedRun i x = x.runLength := by
  simp [carriedRun, h]

theorem carriedRun_next {i l : Idx} {x : Selection} (h : x.lastPoint = some l) (hnext : l.val + 1 = i.val) :
    carriedRun i x = x.runLength := by
  simp [carriedRun, h, hnext]

theorem carriedRun_passedOver {i l : Idx} {x : Selection} (h : x.lastPoint = some l) (hnext : l.val + 1 ≠ i.val) :
    carriedRun i x = 0 := by
  simp [carriedRun, h, hnext]

/-- The Current Run after a fold, which goes on from `carriedRun`. -/
theorem foldPoint_run (i : Idx) (usable passes : Bool) (bits words : Nat) (x : Selection) :
    (foldPoint i usable passes bits words x).runLength = (if passes then carriedRun i x + 1 else 0)
      ∧ (foldPoint i usable passes bits words x).runFirst =
          if passes = true ∧ carriedRun i x = 0 then i else x.runFirst := by
  cases hl : x.lastPoint with
  | none => simp [foldPoint, hl, carriedRun_none hl]
  | some l =>
    by_cases hnext : l.val + 1 = i.val
    · simp [foldPoint, hl, hnext, carriedRun_next hl hnext]
    · simp [foldPoint, hl, hnext, carriedRun_passedOver hl hnext]

theorem foldPoint_best_unusable (i : Idx) (passes : Bool) (bits words : Nat) (x : Selection) :
    (foldPoint i false passes bits words x).best = x.best := rfl

theorem foldPoint_best_first (i : Idx) (passes : Bool) (bits words : Nat) {x : Selection} (h : x.best = none) :
    (foldPoint i true passes bits words x).best = some { index := i, bits := bits, words := words } := by
  simp [foldPoint, h]

/-- A usable point against the Best held: the products are exact (R57). -/
theorem foldPoint_best_compare (i : Idx) (passes : Bool) (bits words : Nat) {x : Selection} {b : Best} (h : x.best = some b) :
    (foldPoint i true passes bits words x).best =
      if bits * b.words < b.bits * words then some { index := i, bits := bits, words := words } else some b := by
  simp [foldPoint, h]

/-- The Longest Run after a fold: the Current Run where a passing point has made that one longer. -/
theorem foldPoint_longest (i : Idx) (usable passes : Bool) (bits words : Nat) (x : Selection) :
    let y := foldPoint i usable passes bits words x
    let longer := passes = true ∧ x.longestLength < y.runLength
    y.longestFirst = (if longer then y.runFirst else x.longestFirst)
      ∧ y.longestLength = if longer then y.runLength else x.longestLength := by
  simp [foldPoint]

theorem foldPoint_counts (i : Idx) (usable passes : Bool) (bits words : Nat) (x : Selection) :
    let y := foldPoint i usable passes bits words x
    y.measured = x.measured + 1 ∧ y.usable = (if usable then x.usable + 1 else x.usable) ∧ y.lastPoint = some i := by
  cases usable <;> simp [foldPoint]

/-- The end of a solo sweep's point folds it, with its counts where it ended in DWELL and zeros where it ended before. -/
theorem pointEnded_selection {k : Channel} (p : Copy) (inDwell : Bool) (o : PointOutcome) (ms : BitVec 32)
    (horigin : k.ctl.origin = .sweep) (hgroup : k.ctl.group = none) :
    (pointEnded k p inDwell o ms).ctl.selection =
      foldPoint p.index (decide (o = .complete))
        (decide (o = .complete ∧ (if inDwell then k.chk.point.bits else 0) ≤ (forceOf k.ctl).passLimit.toNat))
        (if inDwell then k.chk.point.bits else 0) (if inDwell then k.chk.point.words else 0) k.ctl.selection := by
  simp [pointEnded, pointRecordFor, horigin, hgroup]

/-! ### The selection (R59) -/

theorem select_noneUsable (policy : BitVec 2) {x : Selection} (h : x.usable = 0) : select policy x = none := by
  simp [select, h]

theorem select_best {policy : BitVec 2} {x : Selection} {b : Best} (husable : 0 < x.usable) (hbest : x.best = some b)
    (hpolicy : ¬ (policy = 1 ∧ 0 < x.longestLength)) : select policy x = some b.index := by
  simp only [select, if_neg husable.ne', if_neg hpolicy, hbest, Option.map_some]

theorem select_centre {x : Selection} (husable : 0 < x.usable) (hrun : 0 < x.longestLength) :
    select 1 x = some (idxOf (x.longestFirst.val + (x.longestLength - 1) / 2)) := by
  simp [select, husable.ne', hrun]

/-- The middle of a run that lies within the plan is a plan index. -/
theorem idxOf_middle_val {first length : Nat} (hrun : 0 < length) (hfits : first + length ≤ 128) :
    (idxOf (first + (length - 1) / 2)).val = first + (length - 1) / 2 :=
  Nat.mod_eq_of_lt (by omega)

/-- Settles O51: the fold of R57 and R58 read field by field at a point's end, and the three cases of R59's selection. -/
theorem pointsAreScored : Obligations.PointsAreScored := by
  unfold Obligations.PointsAreScored
  constructor
  · intro k p inDwell o ms horigin hgroup x y bits words passes run
    have hy : y = foldPoint p.index (decide (o = .complete)) (decide passes) bits words x :=
      pointEnded_selection p inDwell o ms horigin hgroup
    have hrun : run = carriedRun p.index x := rfl
    obtain ⟨hlength, hfirst⟩ := foldPoint_run p.index (decide (o = .complete)) (decide passes) bits words x
    obtain ⟨hlongestFirst, hlongestLength⟩ :=
      foldPoint_longest p.index (decide (o = .complete)) (decide passes) bits words x
    obtain ⟨hmeasured, husable, hlast⟩ := foldPoint_counts p.index (decide (o = .complete)) (decide passes) bits words x
    simp only [← hy, ← hrun, decide_eq_true_eq] at hlength hfirst hlongestFirst hlongestLength hmeasured husable hlast
    refine ⟨?unusable, ?first, ?compare, ?begins, ?grows, ?breaks, ?longer, ?kept, ?measured, ?usable, ?last⟩
    case unusable => intro ho; rw [hy, decide_eq_false ho, foldPoint_best_unusable]
    case first => intro ho hb; rw [hy, decide_eq_true ho, foldPoint_best_first _ _ _ _ hb]
    case compare => intro b ho hb; rw [hy, decide_eq_true ho, foldPoint_best_compare _ _ _ _ hb]
    case begins => intro hp hr; simp [hlength, hfirst, hp, hr]
    case grows => intro hp hr; simp [hlength, hfirst, hp, hr]
    case breaks => intro hp; simp [hlength, hp]
    case longer => intro hp hl; exact ⟨hlongestFirst.trans (if_pos ⟨hp, hl⟩), hlongestLength.trans (if_pos ⟨hp, hl⟩)⟩
    case kept => intro hk; exact ⟨hlongestFirst.trans (if_neg hk), hlongestLength.trans (if_neg hk)⟩
    case measured => exact hmeasured
    case usable => exact husable
    case last => exact hlast
  · intro policy x
    refine ⟨select_noneUsable policy, ?best, ?centre⟩
    case best =>
      intro b husable hbest hpolicy
      refine select_best husable hbest ?_
      rintro ⟨rfl, hrun⟩
      rcases hpolicy with hzero | hnoRun
      · exact absurd hzero (by decide)
      · omega
    case centre =>
      rintro husable rfl hrun hfits
      exact ⟨_, select_centre husable hrun, idxOf_middle_val hrun hfits⟩

end Sys2Proof.Machine
end

section
/-! CLEAR_HALT, and a start of work without REFCLK. -/

namespace Sys2Proof.Machine

open Sys2Proof

/-! ### The rows while the part is not held in reset (R166) -/

theorem exec_startSweep_running (c : Chan) {s : State} (h : s.dev.held = false) :
    exec (.startSweep c) s = .next { s with dev := cmdStartSweep c s.dev } := by
  change s.act (happening (cmdStartSweep c)) = _
  rw [State.act_eq, happening_running h]

theorem exec_single_running (c : Chan) {s : State} (h : s.dev.held = false) :
    exec (.single c) s = .next { s with dev := cmdSingle c s.dev } := by
  change s.act (happening (cmdSingle c)) = _
  rw [State.act_eq, happening_running h]

theorem exec_apply_running (c : Chan) {s : State} (h : s.dev.held = false) :
    exec (.apply c) s = .next { s with dev := cmdApply c s.dev } := by
  change s.act (happening (cmdApply c)) = _
  rw [State.act_eq, happening_running h]

theorem exec_clearHalt_running (c : Chan) {s : State} (h : s.dev.held = false) :
    exec (.clearHalt c) s = .next { s with dev := cmdClearHalt c s.dev } := by
  change s.act (happening (cmdClearHalt c)) = _
  rw [State.act_eq, happening_running h]

/-! ### CLEAR_HALT (R74) -/

/-- A halted channel after CLEAR_HALT: IDLE at rest, the command taken. -/
def haltCleared (k : Channel) : Channel :=
  { k with
    front := restSettings
    ctl := { k.ctl with state := .idle, current := none, lastCommand := 0x09, lastStatus := .accepted } }

theorem cmdClearHalt_halted {c : Chan} {d : Device} (h : (d.ctl c).state = .halted) :
    cmdClearHalt c d = modChan c haltCleared d := by
  rw [cmdClearHalt, if_pos h, accept_eq, modCtl, modChan_modChan]; rfl

theorem cmdClearHalt_elsewhere {c : Chan} {d : Device} (h : (d.ctl c).state ≠ .halted) :
    cmdClearHalt c d = modChan c (withRefusal 0x09 .badState) d := by
  rw [cmdClearHalt, if_neg h, refuse_eq]

/-! ### A start of work without REFCLK (R47, R66, R67) -/

@[simp] theorem runningGroup_modChan (c b : Chan) (f : Channel → Channel) (d : Device) :
    runningGroup (modChan c f d) b = runningGroup d b := rfl

@[simp] theorem preloadActive_modChan (c : Chan) (f : Channel → Channel) (d : Device) :
    preloadActive (modChan c f d) = preloadActive d := rfl

/-- A channel whose command to start work meets NO_REFCLK: nothing that R47, R66 and R67 judge first refuses it. -/
structure MeetsNoRefclk (d : Device) (c : Chan) : Prop where
  free : freeToStart d c = true
  noPreload : preloadActive d = false
  absent : d.time.present = false

theorem MeetsNoRefclk.cmdStartSweep {d : Device} {c : Chan} (h : MeetsNoRefclk d c) :
    cmdStartSweep c d = modChan c (withRefusal 0x03 .noRefclk) d := by
  simp [Machine.cmdStartSweep, h.free, h.noPreload, h.absent, refuse_eq]

theorem MeetsNoRefclk.cmdSingle {d : Device} {c : Chan} (h : MeetsNoRefclk d c) :
    cmdSingle c d = modChan c (withRefusal 0x05 .noRefclk) d := by
  simp [Machine.cmdSingle, h.free, h.noPreload, h.absent, refuse_eq]

theorem MeetsNoRefclk.cmdApply {d : Device} {c : Chan} (h : MeetsNoRefclk d c) :
    cmdApply c d = modChan c (withRefusal 0x06 .noRefclk) d := by
  simp [Machine.cmdApply, h.free, h.noPreload, h.absent, refuse_eq]

/-- CLEAR_HALT leaves the channel free to start, and neither REFCLK, a preload nor a group changes with it. -/
theorem haltCleared_meetsNoRefclk {c : Chan} {d : Device} (habsent : d.time.present = false)
    (hpreload : preloadActive d = false) (hgroup : runningGroup d c = none) :
    MeetsNoRefclk (modChan c haltCleared d) c where
  free := by simp [freeToStart, haltCleared, hgroup]
  noPreload := by simpa using hpreload
  absent := by simpa using habsent

/-- Settles O26: CLEAR_HALT by the channel's state, and the three starts from the state it leaves. -/
theorem clearHaltBringsIdle : Obligations.ClearHaltBringsIdle := by
  unfold Obligations.ClearHaltBringsIdle
  intro c s hheld
  refine ⟨?taken, ?refused, ?noRefclk⟩
  case taken => intro hhalted; rw [exec_clearHalt_running c hheld, cmdClearHalt_halted hhalted]; rfl
  case refused => intro helse; rw [exec_clearHalt_running c hheld, cmdClearHalt_elsewhere helse]
  case noRefclk =>
    intro hhalted habsent hpreload hgroup t ht
    rw [exec_clearHalt_running c hheld, cmdClearHalt_halted hhalted] at ht
    have hcleared : t.dev = modChan c haltCleared s.dev := by injection ht with ht; rw [← ht]
    have hrunning : t.dev.held = false := by simpa [hcleared] using hheld
    have hmeets : MeetsNoRefclk t.dev c := hcleared ▸ haltCleared_meetsNoRefclk habsent hpreload hgroup
    refine ⟨?sweep, ?single, ?apply⟩
    case sweep => rw [exec_startSweep_running c hrunning, hmeets.cmdStartSweep]
    case single => rw [exec_single_running c hrunning, hmeets.cmdSingle]
    case apply => rw [exec_apply_running c hrunning, hmeets.cmdApply]

end Sys2Proof.Machine
end

section
/-! The decision of a track cycle (R100, R101): the best of the other candidates, the decision's table, and what the channel does
with it. -/

namespace Sys2Proof.Machine

open Sys2Proof

/-! ### The best of the other candidates -/

/-- The best of the candidates so far against the next one in list order: the step of `bestOther`. -/
def better (best : Option Kept) (k : Kept) : Option Kept :=
  if k.complete then
    match best with
    | none => some k
    | some x => if k.bits < x.bits then some k else some x
  else best

theorem bestOther_eq_foldl (ks : List Kept) : bestOther ks = ks.foldl better none := rfl

theorem better_incomplete {best : Option Kept} {k : Kept} (h : k.complete = false) : better best k = best := by
  simp [better, h]

/-- A COMPLETE candidate replaces a best of more bit errors. -/
theorem better_takes {best : Option Kept} {k : Kept} (hcomplete : k.complete = true) (hbest : ∀ x ∈ best, k.bits < x.bits) :
    better best k = some k := by
  cases best with
  | none => simp [better, hcomplete]
  | some x => simp [better, hcomplete, hbest x rfl]

/-- The best stays against a candidate that is not COMPLETE or has no fewer bit errors: of equals, the earlier. -/
theorem better_keeps {b k : Kept} (h : k.complete = true → b.bits ≤ k.bits) : better (some b) k = some b := by
  cases hk : k.complete with
  | false => exact better_incomplete hk
  | true => simp [better, hk, h hk]

/-- The new best is the old one, or the candidate it was compared with. -/
theorem mem_better {best : Option Kept} {k x : Kept} (h : x ∈ better best k) : x ∈ best ∨ (x = k ∧ k.complete = true) := by
  cases hk : k.complete with
  | false => exact .inl (by rwa [better_incomplete hk] at h)
  | true =>
    cases best with
    | none => exact .inr ⟨by simpa [better, hk] using h.symm, rfl⟩
    | some b =>
      by_cases hless : k.bits < b.bits
      · exact .inr ⟨by simpa [better, hk, hless] using h.symm, rfl⟩
      · exact .inl (by simpa [better, hk, hless] using h)

/-- The best of a list is one of its COMPLETE candidates, or the best it began with. -/
theorem mem_foldl_better {ks : List Kept} {best : Option Kept} {x : Kept} (h : x ∈ ks.foldl better best) :
    x ∈ best ∨ (x ∈ ks ∧ x.complete = true) := by
  induction ks generalizing best with
  | nil => exact .inl h
  | cons k ks ih =>
    rcases ih h with hstep | ⟨hmem, hcomplete⟩
    · rcases mem_better hstep with hbest | ⟨rfl, hcomplete⟩
      · exact .inl hbest
      · exact .inr ⟨List.mem_cons_self, hcomplete⟩
    · exact .inr ⟨List.mem_cons_of_mem _ hmem, hcomplete⟩

theorem foldl_better_keeps {b : Kept} {ks : List Kept} (h : ∀ x ∈ ks, x.complete = true → b.bits ≤ x.bits) :
    ks.foldl better (some b) = some b := by
  induction ks with
  | nil => rfl
  | cons k ks ih =>
    rw [List.foldl_cons, better_keeps (h k List.mem_cons_self)]
    exact ih fun x hx => h x (List.mem_cons_of_mem _ hx)

theorem bestOther_none {ks : List Kept} (h : ∀ x ∈ ks, x.complete = false) : bestOther ks = none := by
  refine Option.eq_none_iff_forall_not_mem.mpr fun x hx => ?_
  rcases mem_foldl_better (bestOther_eq_foldl ks ▸ hx) with hnone | ⟨hmem, hcomplete⟩
  · simp at hnone
  · simp [h x hmem] at hcomplete

/-- A COMPLETE candidate with fewer bit errors than every COMPLETE one before it, and no more than every one after it, is the best. -/
theorem bestOther_split {pre post : List Kept} {b : Kept} (hcomplete : b.complete = true)
    (hpre : ∀ x ∈ pre, x.complete = true → b.bits < x.bits) (hpost : ∀ x ∈ post, x.complete = true → b.bits ≤ x.bits) :
    bestOther (pre ++ b :: post) = some b := by
  have hbefore : ∀ x ∈ pre.foldl better none, b.bits < x.bits := by
    intro x hx
    rcases mem_foldl_better hx with hnone | ⟨hmem, hx⟩
    · simp at hnone
    · exact hpre x hmem hx
  rw [bestOther_eq_foldl, List.foldl_append, List.foldl_cons, better_takes hcomplete hbefore, foldl_better_keeps hpost]

/-! ### The decision's table (R101) -/

theorem decideCycle_best {h : Nat} {cur b : Kept} {others : List Kept} (hbest : bestOther others = some b) :
    decideCycle h (cur :: others) =
      if cur.complete = false ∨ b.bits + h ≤ cur.bits then .move b else .stay := by
  cases hcur : cur.complete <;> simp [decideCycle, hbest, hcur]

theorem decideCycle_noBest {h : Nat} {cur : Kept} {others : List Kept} (hbest : bestOther others = none) :
    decideCycle h (cur :: others) = if cur.complete then .stay else .noUsable := by
  simp [decideCycle, hbest]

/-! ### Taking the decision (R100, R101, R107) -/

/-- A channel that decides: the last candidate of its list is measured, with no STOP taken. -/
theorem proceed_candidate_decides {c : Chan} {d : Device} (hstopping : (d.ctl c).stopping = false)
    (hlast : (d.ctl c).cycle.list.length ≤ (d.ctl c).cycle.position + 1) :
    proceed c .candidate d = takeDecision c d := by
  simp only [proceed, afterCandidate, hstopping, Bool.false_eq_true, if_false, if_neg (Nat.not_lt.mpr hlast)]

/-- A halt of work that is no sweep has no point to fold and no summary: its point record alone, and the close. -/
theorem haltChannel_noSweep {waits : Bool} {pt : Option Record} {cause : HaltCause} {ms : BitVec 16} {c : Chan} {d : Device}
    (horigin : (d.ctl c).origin ≠ .sweep) :
    haltChannel waits pt cause ms c d = haltWith c pt.toList cause false d := by
  have hfold : foldUnderWay c d = d := by
    simp only [foldUnderWay, if_neg horigin]
    split <;> rfl
  have hbegun : sweepBegun (d.ctl c) = false := by simp [sweepBegun, horigin]
  rw [haltChannel, soloEnd, hfold, hbegun, endWith_eq]
  cases waits <;> cases pt <;> rfl

theorem takeDecision_move {c : Chan} {d : Device} {b : Kept}
    (h : decideCycle (forceOf (d.ctl c)).track.hysteresis.toNat (d.ctl c).cycle.kept = .move b) :
    takeDecision c d = modCtl c (fun k => { k with task := .reapply b.index, failCount := 0 }) d := by
  simp only [takeDecision, h]

section Current

variable {c : Chan} {d : Device} {i : Idx} (hcurrent : (d.ctl c).current = some i)
include hcurrent

theorem takeDecision_stay (h : decideCycle (forceOf (d.ctl c)).track.hysteresis.toNat (d.ctl c).cycle.kept = .stay) :
    takeDecision c d = modCtl c (fun k => { k with task := .reapply i, failCount := 0 }) d := by
  simp only [takeDecision, h, hcurrent, Option.getD_some]

theorem takeDecision_belowLimit
    (h : decideCycle (forceOf (d.ctl c)).track.hysteresis.toNat (d.ctl c).cycle.kept = .noUsable)
    (hlimit : (d.ctl c).failCount + 1 < (forceOf (d.ctl c)).track.failLimit.toNat) :
    takeDecision c d = modCtl c (fun k => { k with task := .reapply i, failCount := (d.ctl c).failCount + 1 }) d := by
  simp only [takeDecision, h, hcurrent, Option.getD_some, if_neg (Nat.not_le.mpr hlimit)]
  exact modChan_congr rfl

end Current

/-- At the Track Fail Limit, TRACK_FAIL is raised ahead of the halt's own events; the halt drops the task that the decision set. -/
theorem takeDecision_atLimit {c : Chan} {d : Device} (horigin : (d.ctl c).origin = .track)
    (h : decideCycle (forceOf (d.ctl c)).track.hysteresis.toNat (d.ctl c).cycle.kept = .noUsable)
    (hlimit : (forceOf (d.ctl c)).track.failLimit.toNat ≤ (d.ctl c).failCount + 1) :
    takeDecision c d =
      haltWith c [] .trackFail false
        (modChan c (fun k =>
          { k with raised := k.raised ++ [.trackFail], ctl := { k.ctl with failCount := (d.ctl c).failCount + 1 } }) d) := by
  simp only [takeDecision, h, if_pos hlimit]
  rw [haltChannel_noSweep (by simp [horigin])]
  simp only [haltWith, Option.toList_none, writeAll, closedBy, raise, modCtl, modChan_modChan]
  exact modChan_congr rfl

/-- Settles O54: the decision's table at the last candidate, with the best of the others, and the three ways it is taken. -/
theorem trackDecidesItsCycle : Obligations.TrackDecidesItsCycle := by
  unfold Obligations.TrackDecidesItsCycle
  intro c d cur others i hstopping hlast hkept hcurrent horigin t decided
  rw [proceed_candidate_decides hstopping hlast]
  refine ⟨?best, ?stay, ?fail⟩
  case best =>
    rintro pre b post rfl hcomplete hpre hpost
    have hdecision := hkept ▸ decideCycle_best (h := t.hysteresis.toNat) (cur := cur) (bestOther_split hcomplete hpre hpost)
    split
    · next hmove => exact takeDecision_move (hdecision.trans (if_pos hmove))
    · next hstay => exact takeDecision_stay hcurrent (hdecision.trans (if_neg hstay))
  case stay =>
    intro hothers hcur
    have hdecision := hkept ▸ decideCycle_noBest (h := t.hysteresis.toNat) (cur := cur) (bestOther_none hothers)
    exact takeDecision_stay hcurrent (hdecision.trans (if_pos hcur))
  case fail =>
    intro hothers hcur n
    have hnoUsable := (hkept ▸ decideCycle_noBest (h := t.hysteresis.toNat) (bestOther_none hothers)).trans
      (if_neg (by simp [hcur]))
    exact ⟨takeDecision_belowLimit hcurrent hnoUsable, takeDecision_atLimit horigin hnoUsable⟩

end Sys2Proof.Machine
end

section
/-! CLEAR_COUNTERS, and the channel page under a Page Mask of 0. -/

namespace Sys2Proof.Machine

open Sys2Proof

/-! ### CLEAR_COUNTERS (R41, R138) -/

theorem exec_clearCounters_running (c : Chan) {s : State} (h : s.dev.held = false) :
    exec (.clearCounters c) s = .next { s with dev := cmdClearCounters c s.dev } := by
  change s.act (happening (cmdClearCounters c)) = _
  rw [State.act_eq, happening_running h]

/-- A channel after CLEAR_COUNTERS: the monitor counters at 0, the command taken. -/
def countersCleared (k : Channel) : Channel :=
  { k with
    chk := { k.chk with monitor := Monitor.zero }
    ctl := { k.ctl with lastCommand := 0x0A, lastStatus := .accepted } }

theorem cmdClearCounters_off {c : Chan} {d : Device} (h : (d.ctl c).state = .off) :
    cmdClearCounters c d = modChan c (withRefusal 0x0A .badState) d := by
  rw [cmdClearCounters, if_pos h, refuse_eq]

theorem cmdClearCounters_elsewhere {c : Chan} {d : Device} (h : (d.ctl c).state ≠ .off) :
    cmdClearCounters c d = modChan c countersCleared d := by
  rw [cmdClearCounters, if_neg h, accept_eq, modCtl, modChan_modChan]; rfl

/-- Settles O27: CLEAR_COUNTERS by the channel's state, which is all it is judged by. -/
theorem clearCountersZeroesTheMonitor : Obligations.ClearCountersZeroesTheMonitor := by
  unfold Obligations.ClearCountersZeroesTheMonitor
  intro c s hheld
  rw [exec_clearCounters_running c hheld]
  refine ⟨?refused, ?taken⟩
  case refused => intro hoff; rw [cmdClearCounters_off hoff]
  case taken => intro helse; rw [cmdClearCounters_elsewhere helse]; rfl

/-! ### The offsets of the channel page (R181) -/

theorem exec_registerWrite_running (a : BitVec 12) (v : BusWord) {s : State} (h : s.dev.held = false) :
    exec (.registerWrite a v) s = .next { s with dev := writeAt (2 * a.toNat) v s.dev } := by
  change s.act (hostAccess (.write (2 * a.toNat) v) (writeAt (2 * a.toNat) v)) = _
  rw [State.act_eq, hostAccess_running h]

section Page

variable {offset : Nat} (hlow : 0x0100 ≤ offset) (hhigh : offset < 0x0200)
include hlow hhigh

theorem busRead_page (d : Device) : busRead d offset = pageRead d offset := by
  rw [busRead, if_neg (by omega), dif_neg (by omega), if_neg (by omega), if_pos hhigh]

theorem writeAt_page (v : BusWord) (d : Device) : writeAt offset v d = pageWriteAt offset v d := by
  rw [writeAt, if_neg (by omega), dif_neg (by omega), if_neg (by omega), if_pos hhigh]

end Page

/-! ### A Page Mask of 0 (R135) -/

@[simp] theorem inMask_zero (c : Chan) : inMask 0#8 c = false := BitVec.getLsbD_zero

section Unselected

variable {d : Device} (hmask : d.host.pageMask = 0)
include hmask

theorem lowestSelected_unselected : lowestSelected d = none := by
  simp [lowestSelected, hmask]

theorem pageRead_unselected (offset : Nat) : pageRead d offset = 0 := by
  rw [pageRead, lowestSelected_unselected hmask]

theorem pageWrite_unselected (offset : Nat) (f : Chan → Device → Device) :
    pageWrite offset f d = withBadWrite .noChannel offset d := by
  rw [pageWrite, if_pos hmask, badWrite_eq]

/-- NO_CHANNEL is judged ahead of the preload, so the write is not counted as dropped for it. -/
theorem pageConfigWrite_unselected (offset : Nat) (f : Chan → Device → Device) :
    pageConfigWrite offset f d = withBadWrite .noChannel offset d := by
  rw [pageConfigWrite, if_pos hmask, badWrite_eq]

/-- Every offset of the page, a read-only or unlisted one too, is written through one of the two page writes. -/
theorem pageWriteAt_unselected (offset : Nat) (v : BusWord) :
    pageWriteAt offset v d = withBadWrite .noChannel offset d := by
  unfold pageWriteAt
  split
  · exact pageConfigWrite_unselected hmask ..
  · split <;> simp only [pageWrite_unselected hmask, pageConfigWrite_unselected hmask]

end Unselected

/-- Settles O29: the page's read and its write, neither of which reaches a channel. -/
theorem pageMaskZeroDropsTheWrite : Obligations.PageMaskZeroDropsTheWrite := by
  unfold Obligations.PageMaskZeroDropsTheWrite
  intro a v s hheld hmask hlow hhigh
  refine ⟨?read, ?write⟩
  case read => rw [busRead_page hlow hhigh, pageRead_unselected hmask]
  case write => rw [exec_registerWrite_running a v hheld, writeAt_page hlow hhigh, pageWriteAt_unselected hmask]

end Sys2Proof.Machine
end

section
/-! What a happening at one channel changes: that channel, its ring, the rotation of the arbiter, and nothing else. -/

namespace Sys2Proof.Machine

-- One theorem after another: a thread for each would take the memory a check allows.
set_option Elab.async false

open Sys2Proof

/-! ### One channel -/

/-- The front end holds settings in range, and so does a copy on its way to it. -/
def frontOk (k : Channel) : Prop := settingsInRange k.front = true ∧ messageInRange k.ctl.message

/-- What a channel's own work leaves as it was: configuration, generator, the checker but for its point counters, the event set,
its enables, the raises of other blocks and the snapshot; and its front end stays in range. -/
structure OwnWork (k k' : Channel) : Prop where
  config : k'.config = k.config
  gen : k'.gen = k.gen
  checker : k'.chk = { k.chk with point := k'.chk.point }
  events : k'.events = k.events
  enables : k'.enables = k.enables
  others : raisedByOthers k' = raisedByOthers k
  snap : k'.snap = k.snap
  fronts : frontOk k → frontOk k'

theorem OwnWork.refl (k : Channel) : OwnWork k k := ⟨rfl, rfl, rfl, rfl, rfl, rfl, rfl, id⟩

theorem OwnWork.trans {k l m : Channel} (h : OwnWork k l) (h' : OwnWork l m) : OwnWork k m where
  config := h'.config.trans h.config
  gen := h'.gen.trans h.gen
  checker := by rw [h'.checker, h.checker]
  events := h'.events.trans h.events
  enables := h'.enables.trans h.enables
  others := h'.others.trans h.others
  snap := h'.snap.trans h.snap
  fronts := h'.fronts ∘ h.fronts

/-- A controller that hands no new copy on keeps its channel's front end in range. -/
theorem OwnWork.ofCtl {k : Channel} {x : Controller} (h : x.message = k.ctl.message ∨ x.message = none) :
    OwnWork k { k with ctl := x } where
  config := rfl
  gen := rfl
  checker := rfl
  events := rfl
  enables := rfl
  others := rfl
  snap := rfl
  fronts hk := ⟨hk.1, by
    change messageInRange x.message
    rcases h with h | h <;> rw [h]
    · exact hk.2
    · trivial⟩

theorem OwnWork.ofRaise (k : Channel) {v : ChanEvent} (hv : byController v = true) : OwnWork k (chanRaise v k) where
  config := rfl
  gen := rfl
  checker := rfl
  events := rfl
  enables := rfl
  others := by
    simp only [raisedByOthers, chanRaise_raised, List.filter_append]
    cases v <;> simp_all [byController]
  snap := rfl
  fronts := id

/-- The rest settings are in range. -/
theorem restSettings_inRange : settingsInRange restSettings = true := by decide

/-- Work at rest: rest settings or settings in range at the front end, counting closed or opened. -/
theorem OwnWork.ofFront {k : Channel} {x : Controller} {s : Settings} {p : PointCounters}
    (hs : frontOk k → settingsInRange s = true) (h : x.message = k.ctl.message ∨ x.message = none) :
    OwnWork k { k with front := s, ctl := x, chk := { k.chk with point := p } } where
  config := rfl
  gen := rfl
  checker := rfl
  events := rfl
  enables := rfl
  others := rfl
  snap := rfl
  fronts hk := ⟨hs hk, ((OwnWork.ofCtl h).fronts hk).2⟩

/-! ### The part -/

/-- The part but for its channels, the RAM, the arbiter's rotation, the ending between its fills and the count of free values. -/
def elsewhere (d : Device) : Device :=
  { d with
    chans := Eight.build fun _ => Channel.default, ram := [], arbiter := Arbiter.default, ending := none, free := 0 }

/-- Own work of channel `c` leads from `d` to `e`. -/
structure Solo (c : Chan) (d e : Device) : Prop where
  frame : elsewhere e = elsewhere d
  others : ∀ b, b ≠ c → e.chan b = d.chan b
  canonical : Memory.wf d.ram = true → Memory.wf e.ram = true
  bytes : ∀ a, ¬ inRing c a → ramByte e a = ramByte d a
  own : OwnWork (d.chan c) (e.chan c)

namespace Solo

variable {c : Chan} {d e : Device}

theorem refl (c : Chan) (d : Device) : Solo c d d := ⟨rfl, fun _ _ => rfl, id, fun _ _ => rfl, .refl _⟩

theorem trans {e' : Device} (h : Solo c d e) (h' : Solo c e e') : Solo c d e' where
  frame := h'.frame.trans h.frame
  others b hb := (h'.others b hb).trans (h.others b hb)
  canonical := h'.canonical ∘ h.canonical
  bytes a ha := (h'.bytes a ha).trans (h.bytes a ha)
  own := h.own.trans h'.own

theorem groups (h : Solo c d e) : e.groups = d.groups := by
  change (elsewhere e).groups = (elsewhere d).groups; rw [h.frame]
theorem lanes (h : Solo c d e) : e.lanes = d.lanes := by
  change (elsewhere e).lanes = (elsewhere d).lanes; rw [h.frame]
theorem time (h : Solo c d e) : e.time = d.time := by
  change (elsewhere e).time = (elsewhere d).time; rw [h.frame]
theorem preload (h : Solo c d e) : e.preload = d.preload := by
  change (elsewhere e).preload = (elsewhere d).preload; rw [h.frame]
theorem held (h : Solo c d e) : e.held = d.held := by
  change (elsewhere e).held = (elsewhere d).held; rw [h.frame]

theorem group (h : Solo c d e) (g : Grp) : e.group g = d.group g := by rw [Device.group, h.groups]; rfl

theorem otherCtl (h : Solo c d e) {b : Chan} (hb : b ≠ c) : e.ctl b = d.ctl b := congrArg Channel.ctl (h.others b hb)

/-- The RAM and the channels as they were, whatever happens to the arbiter, the ending or the free values. -/
theorem ofSame {e' : Device} (h : Solo c d e) (hf : elsewhere e' = elsewhere e) (hc : e'.chans = e.chans) (hr : e'.ram = e.ram) :
    Solo c d e' :=
  h.trans
    { frame := hf
      others := fun b _ => by simp only [Device.chan, hc]
      canonical := by rw [hr]; exact id
      bytes := fun a _ => by
        have he : e'.epoch = e.epoch := by change (elsewhere e').epoch = (elsewhere e).epoch; rw [hf]
        simp only [ramByte, hr, he]
      own := by simp only [Device.chan, hc]; exact .refl _ }

theorem modChan (h : Solo c d e) {f : Channel → Channel} (hf : OwnWork (e.chan c) (f (e.chan c))) :
    Solo c d (modChan c f e) :=
  h.trans ⟨rfl, fun _ hb => modChan_chan_ne f e hb, id, fun _ _ => rfl, by rw [modChan_chan_self]; exact hf⟩

theorem modCtl (h : Solo c d e) {f : Controller → Controller}
    (hf : ∀ k, (f k).message = k.message ∨ (f k).message = none := by exact fun _ => Or.inl rfl) : Solo c d (modCtl c f e) := h.modChan (.ofCtl (hf _))

theorem raise (h : Solo c d e) {v : ChanEvent} (hv : byController v = true := by rfl) : Solo c d (raise c v e) := h.modChan (.ofRaise _ hv)

theorem raiseIf (h : Solo c d e) (b : Bool) {v : ChanEvent} (hv : byController v = true := by rfl) : Solo c d (raiseIf b c v e) := by
  cases b
  · exact h
  · exact h.raise hv

theorem served (h : Solo c d e) (r : Requester) : Solo c d (served r e) := h.ofSame rfl rfl rfl
theorem takeTurn (h : Solo c d e) : Solo c d (takeTurn c e) := h.ofSame rfl rfl rfl
theorem countFree (h : Solo c d e) : Solo c d { e with free := e.free + 1 } := h.ofSame rfl rfl rfl
theorem setEnding (h : Solo c d e) (x : Option Ending) : Solo c d { e with ending := x } := h.ofSame rfl rfl rfl

/-- A store of words in the channel's ring. -/
theorem writeWords (h : Solo c d e) {a : Nat} {ws : List BusWord} (ha : ∀ b, ¬ inRing c b → b < a ∨ a + 2 * ws.length ≤ b) :
    Solo c d (writeWords a ws e) :=
  h.trans
    { frame := by rw [writeWords_form]; rfl
      others := fun b _ => by rw [writeWords_form]; rfl
      canonical := wf_writeWords a ws e
      bytes := fun b hb => ramByte_writeWords_of_outside a ws e b (ha b hb)
      own := by rw [writeWords_form]; exact .refl _ }

theorem writeWord (h : Solo c d e) {a : Nat} {v : BusWord} (ha : ∀ b, ¬ inRing c b → b < a ∨ a + 2 ≤ b) :
    Solo c d (writeWord a v e) := h.writeWords (ws := [v]) ha

theorem refuse (h : Solo c d e) (code : BitVec 8) (st : LastStatus) : Solo c d (refuse code st c e) :=
  h.modCtl.raise

theorem accept (h : Solo c d e) (code : BitVec 8) (st : LastStatus) : Solo c d (accept code st c e) := h.modCtl

theorem setTask (h : Solo c d e) (t : Task) : Solo c d (setTask c t e) := h.modCtl

theorem setFront (h : Solo c d e) {x : Settings} (hx : frontOk (e.chan c) → settingsInRange x = true) : Solo c d (setFront c x e) :=
  h.modChan (.ofFront hx (.inl rfl))

/-! ### Plan checks -/

theorem showProgress (h : Solo c d e) (p : CheckProgress) : Solo c d (showProgress c p e) := by
  unfold Machine.showProgress
  split
  · exact h.modCtl
  · exact h.countFree.modCtl

theorem showResult (h : Solo c d e) (r : CheckResult) (i : Idx) : Solo c d (showResult c r i e) := h.modCtl
theorem showAbandoned (h : Solo c d e) : Solo c d (showAbandoned c e) := h.modCtl

theorem showFetchFailure (h : Solo c d e) (r : CheckResult) (i : Idx) : Solo c d (showFetchFailure c r i e) :=
  h.modCtl

/-! ### Rings, rest and endings -/

theorem writeRecord (h : Solo c d e) (r : Record) : Solo c d (writeRecord c r e) := by
  have hb := fillAddr_bounds e c
  have hin : ∀ b, ¬ inRing c b → b < fillAddr e c ∨ fillAddr e c + 32 ≤ b := fun b hb' => by
    unfold inRing at hb'; omega
  have hwords : Solo c d (Machine.writeWords (fillAddr e c + 2) (bodyWords r) e) :=
    h.writeWords fun b hb' => by have := hin b hb'; rw [bodyWords_length]; omega
  have hmoved := (hwords.writeWord (a := fillAddr e c) (v := controlWord r (wrapFlag (fillControl e c)) (irqFlag (fillControl e c)))
    (fun b hb' => by have := hin b hb'; omega)).modCtl
      (f := fun k => { k with fillPosition := nextFill k.fillPosition (wrapFlag (fillControl e c)) }) fun _ => .inl rfl
  unfold Machine.writeRecord
  dsimp only
  split
  · exact hmoved.raise
  · exact hmoved

theorem discardRecord (h : Solo c d e) : Solo c d (discardRecord c e) := h.modCtl.raise

theorem endingWrite (h : Solo c d e) (r : Record) : Solo c d (endingWrite c r e) := by
  rw [Machine.endingWrite]
  split
  · exact (h.writeRecord r).takeTurn
  · exact h.discardRecord.takeTurn

theorem endingWriteOpt (h : Solo c d e) (r : Option Record) : Solo c d (endingWriteOpt c r e) := by
  cases r with
  | none => exact h
  | some r => exact h.endingWrite r

theorem toRest (h : Solo c d e) (st : ChanState) : Solo c d (toRest c st e) :=
  h.modChan (.ofFront (fun _ => restSettings_inRange) (.inr rfl))

theorem closeWith (h : Solo c d e) (k : Closing) (swept : Bool) : Solo c d (closeWith k swept c e) := by
  cases k with
  | halt cause reports => exact (((h.toRest _).modCtl).raiseIf _).raise
  | abort => exact (h.toRest _).raiseIf _

theorem endWith (h : Solo c d e) (waits : Bool) (point summary : Option Record) (k : Closing) :
    Solo c d (endWith waits point summary k c e) := by
  have hpoint := h.endingWriteOpt point
  unfold Machine.endWith
  dsimp only
  split
  · exact hpoint.closeWith k _
  · split
    · exact hpoint.setEnding _
    · exact (hpoint.endingWrite _).closeWith k _

theorem goOnEnding (h : Solo c d e) : Solo c d (goOnEnding c e) := by
  unfold Machine.goOnEnding
  split
  · split
    · exact ((h.setEnding none).endingWrite _).closeWith _ _
    · exact h
  · exact h

theorem enterApplied (h : Solo c d e) : Solo c d (enterApplied c e) := h.modChan (.ofFront And.left (.inr rfl))

theorem foldUnderWay (h : Solo c d e) : Solo c d (foldUnderWay c e) := by
  unfold Machine.foldUnderWay
  dsimp only
  split
  · split
    · exact h.modCtl
    · exact h
  · exact h

theorem soloEnd (h : Solo c d e) (waits : Bool) (pt : Option Record) (o : SweepOutcome) (cause : HaltCause) (at_ : BitVec 16)
    (k : Closing) : Solo c d (soloEnd waits pt o cause at_ k c e) := h.foldUnderWay.endWith _ _ _ _

theorem haltChannel (h : Solo c d e) (waits : Bool) (pt : Option Record) (cause : HaltCause) (at_ : BitVec 16) :
    Solo c d (haltChannel waits pt cause at_ c e) := h.soloEnd _ _ _ _ _ _

theorem abortSweep (h : Solo c d e) : Solo c d (abortSweep c e) := h.soloEnd _ _ _ _ _ _

/-! ### The point cycle -/

theorem enterDwell (h : Solo c d e) (p : Copy) : Solo c d (enterDwell c p e) := h.modChan (.ofFront And.left (.inl rfl))

theorem enterLockwait (h : Solo c d e) (p : Copy) : Solo c d (enterLockwait c p e) := by
  have hkept := h.modCtl (f := fun k => { k with inbox := keepSignals k.inbox, timer := none }) fun _ => .inl rfl
  unfold Machine.enterLockwait
  dsimp only
  split
  · exact hkept.enterDwell p
  · exact hkept.modCtl

theorem beginSettle (h : Solo c d e) (p : Copy) : Solo c d (beginSettle c p e) := by
  have hsettle := h.modCtl
    (f := fun k => { k with
      task := .settle p, timer := some { kind := .settle, left := (forceOf (e.ctl c)).settleTime.toNat } }) fun _ => .inl rfl
  unfold Machine.beginSettle
  dsimp only
  split
  · exact hsettle.enterLockwait p
  · exact hsettle

theorem applyCurrent (h : Solo c d e) {p : Copy} (hp : frontOk (e.chan c) → settingsInRange p.settings = true) :
    Solo c d (applyCurrent c p e) := h.modChan (.ofFront hp (.inl rfl))

theorem sweepEnding (h : Solo c d e) : Solo c d (sweepEnding c e) := by
  unfold Machine.sweepEnding
  dsimp only
  split
  · exact h.modChan (.ofFront (fun _ => restSettings_inRange) (.inl rfl))
  · exact h.setTask _

theorem startWalk (h : Solo c d e) (start : Nat) : Solo c d (startWalk c start e) := by
  unfold Machine.startWalk
  split
  · exact h
  · split
    · exact h.sweepEnding
    · exact h.setTask _

/-! ### Tracks -/

theorem enterWait (h : Solo c d e) : Solo c d (enterWait c e) := h.modCtl
theorem enterTrack (h : Solo c d e) : Solo c d (enterTrack c e) := (h.modCtl (by exact fun _ => Or.inr rfl)).enterWait
theorem fixList (h : Solo c d e) (l : List Idx) : Solo c d (fixList c l e) := h.modCtl

theorem takeDecision (h : Solo c d e) : Solo c d (takeDecision c e) := by
  unfold Machine.takeDecision
  dsimp only
  split
  · exact h.modCtl
  · exact h.modCtl
  · split
    · exact (h.modCtl.raise).haltChannel _ _ _ _
    · exact h.modCtl

theorem afterCandidate (h : Solo c d e) : Solo c d (afterCandidate c e) := by
  unfold Machine.afterCandidate
  dsimp only
  split
  · exact h.setTask _
  · split
    · exact h.modCtl
    · exact h.takeDecision

theorem afterReapply (h : Solo c d e) : Solo c d (afterReapply c e) := by
  unfold Machine.afterReapply
  dsimp only
  split
  · exact h.enterApplied
  · split
    · exact h.enterWait
    · exact h.modCtl

/-! ### What follows a record -/

theorem afterSingle (h : Solo c d e) : Solo c d (afterSingle c e) := by
  unfold Machine.afterSingle
  dsimp only
  split
  · exact h.toRest _
  · split
    · exact h.toRest _
    · exact h.modChan (.ofFront And.left (.inl rfl))

theorem afterSweepPoint (h : Solo c d e) : Solo c d (afterSweepPoint c e) := by
  unfold Machine.afterSweepPoint
  dsimp only
  split
  · exact h.sweepEnding
  · split
    · exact h
    · exact h.startWalk _

theorem afterSelected (h : Solo c d e) (solo : Bool) : Solo c d (afterSelected solo c e) := by
  unfold Machine.afterSelected
  dsimp only
  split
  · exact h.enterTrack.raise
  · exact h.enterApplied.raise

theorem proceed (h : Solo c d e) (a : After) : Solo c d (proceed c a e) := by
  cases a with
  | sweepPoint => exact h.afterSweepPoint
  | memberPoint r => unfold Machine.proceed; exact h.modCtl
  | selected solo => exact h.afterSelected solo
  | noneUsable => exact (h.toRest _).raise
  | single => exact h.afterSingle
  | candidate => exact h.afterCandidate
  | move => exact h.afterReapply

theorem endPoint (h : Solo c d e) (o : PointOutcome) : Solo c d (endPoint c o e) := by
  have hclosed := h.modChan (f := fun k => { k with chk := chkClose k.chk }) (.ofFront And.left (.inl rfl))
  unfold Machine.endPoint
  dsimp only
  split
  · exact h
  · split
    · exact hclosed
    · exact hclosed.modCtl
    · split <;> exact hclosed.modCtl
    · split
      · exact hclosed.modCtl
      · exact hclosed.modCtl.afterCandidate

end Solo

end Sys2Proof.Machine
end

section
/-! The commands and happenings of one channel, each of them own work of the channel. -/

namespace Sys2Proof.Machine

-- One theorem after another: a thread for each would take the memory a check allows.
set_option Elab.async false

open Sys2Proof

/-! ### A copy that a fetch hands over is in range (R16, R17) -/

theorem validate_inRange {d : Device} {i : Idx} {k : Fin 8} {x : Entry} {p : Copy} (h : validate d i k x = .ok p) :
    settingsInRange p.settings = true := by
  unfold validate at h
  split at h
  · cases h
  · split at h
    · cases h
    · next hrange _ => cases h; simpa using hrange

theorem directedFetch_inRange {d : Device} {i : Idx} {k : Option (Fin 8)} {p : Copy} (h : directedFetch d i k = .ok p) :
    settingsInRange p.settings = true := by
  unfold directedFetch at h
  dsimp only at h
  split at h
  · cases h
  · exact validate_inRange h

theorem walkRead_inRange {d : Device} {i : Idx} {p : Copy} (h : walkRead d i = .found (.ok p)) :
    settingsInRange p.settings = true := by
  unfold walkRead at h
  dsimp only at h
  split at h
  · cases h
  · exact validate_inRange (by injection h)

namespace Solo

variable {c : Chan} {d e : Device}

/-! ### A member's endings -/

theorem memberAborts (h : Solo c d e) (waits : Bool) (pt : Option Record) (f : Figures) (begun : Bool) :
    Solo c d (memberAborts waits pt f begun c e) := h.endWith _ _ _ _

theorem memberHalts (h : Solo c d e) (waits : Bool) (pt : Option Record) (cause : HaltCause) (f : Figures) (begun reports : Bool) :
    Solo c d (memberHalts waits pt cause f begun reports c e) := h.endWith _ _ _ _

theorem ejectedChannel (h : Solo c d e) (under : Option PointOutcome) (st : ChanState) : Solo c d (ejectedChannel under st c e) :=
  (h.endingWriteOpt _).toRest st

theorem takeCopy (h : Solo c d e) {p : Copy} (hm : (e.ctl c).message = some (.copy p)) : Solo c d (takeCopy c p e) := by
  have happlied : Solo c d (Machine.modChan c (fun k => { k with
      front := p.settings, ctl := { k.ctl with message := none, current := some p.index } }) e) :=
    h.modChan (.ofFront (fun hk => by
      have hm' : (e.chan c).ctl.message = some (.copy p) := hm
      have := hk.2; rwa [hm'] at this) (.inr rfl))
  unfold Machine.takeCopy
  rw [Machine.applyCurrent, Machine.modCtl, modChan_modChan]
  exact happlied.beginSettle p

theorem takeAbort (h : Solo c d e) (waits : Bool) (f : Figures) : Solo c d (takeAbort waits c f e) := h.memberAborts _ _ _ _

theorem takeHalt (h : Solo c d e) (waits : Bool) (i : Option Idx) (f : Figures) : Solo c d (takeHalt waits c i f e) :=
  h.memberHalts _ _ _ _ _ _

theorem takeEnding (h : Solo c d e) {p : Option Copy} {f : Figures} (hm : (e.ctl c).message = some (.ending p f)) :
    Solo c d (takeEnding c p f e) := by
  cases p with
  | none => unfold Machine.takeEnding; exact h.modChan (.ofFront (fun _ => restSettings_inRange) (.inr rfl))
  | some p =>
    unfold Machine.takeEnding
    refine (h.applyCurrent fun hk => ?_).modCtl (by exact fun _ => Or.inr rfl)
    have hm' : (e.chan c).ctl.message = some (.ending (some p) f) := hm
    have := hk.2; rwa [hm'] at this

theorem flushGroup (h : Solo c d e) : Solo c d (flushGroup c e) := by
  unfold Machine.flushGroup
  split
  · exact h
  · exact h
  · exact h.takeAbort _ _
  · next hm => exact h.takeEnding hm
  · exact h.takeHalt _ _ _

/-! ### Commands -/

theorem abandonCheck (h : Solo c d e) (st : ChanState) : Solo c d (abandonCheck st c e) := h.showAbandoned.toRest st

theorem abortSingle (h : Solo c d e) : Solo c d (abortSingle c e) := by
  unfold Machine.abortSingle
  split
  · exact h
  · exact (h.endingWriteOpt _).afterSingle

theorem closeTrack (h : Solo c d e) : Solo c d (closeTrack c e) := h.modChan (.ofFront And.left (.inl rfl))

theorem abortTrack (h : Solo c d e) : Solo c d (abortTrack c e) := by
  unfold Machine.abortTrack
  dsimp only
  split
  · exact h.enterApplied
  · exact h.enterApplied
  · exact h.enterApplied
  · split
    · exact h.enterApplied
    · exact h.closeTrack
  · exact (h.endingWrite _).enterApplied
  · exact (h.endingWrite _).enterApplied
  · exact h
  · exact (h.endingWriteOpt _).closeTrack

theorem abortSolo (h : Solo c d e) : Solo c d (abortSolo c e) := by
  unfold Machine.abortSolo
  dsimp only
  split
  · exact h.abandonCheck _
  · split
    · exact h.abortSingle
    · exact h.abortSweep

theorem stopTrack (h : Solo c d e) : Solo c d (stopTrack c e) := by
  unfold Machine.stopTrack
  split
  · exact h.enterApplied
  · exact h.enterApplied
  · exact h.enterApplied
  · exact h
  · exact h.modCtl

theorem stopSweep (h : Solo c d e) : Solo c d (stopSweep c e) := by
  unfold Machine.stopSweep
  dsimp only
  split
  · exact h.abandonCheck _
  · split
    · exact h
    · split
      · exact h.modCtl.sweepEnding
      · exact h.modCtl

theorem beginCheck (h : Solo c d e) : Solo c d (beginCheck c e) := by
  unfold Machine.beginCheck; exact h.modCtl

theorem cmdStartTrack (h : Solo c d e) : Solo c d (cmdStartTrack c e) := by
  unfold Machine.cmdStartTrack
  split
  · exact h.refuse _ _
  · split
    · exact h.refuse _ _
    · split
      · exact h.refuse _ _
      · split
        · exact h.refuse _ _
        · split
          · exact h.refuse _ _
          · exact ((h.accept _ _).modCtl).enterTrack

theorem beginSingle (h : Solo c d e) (w : Window) {p : Copy} (hp : settingsInRange p.settings = true) :
    Solo c d (beginSingle c w p e) := ((h.modCtl).applyCurrent fun _ => hp).beginSettle p

theorem beginApply (h : Solo c d e) (w : Window) {p : Copy} (hp : settingsInRange p.settings = true) :
    Solo c d (beginApply c w p e) := (h.modCtl).applyCurrent fun _ => hp

theorem cmdSingle (h : Solo c d e) : Solo c d (cmdSingle c e) := by
  unfold Machine.cmdSingle
  split
  · exact h.refuse _ _
  · split
    · exact h.refuse _ _
    · split
      · exact h.refuse _ _
      · split
        · exact h.refuse _ _
        · dsimp only
          split
          · exact h.refuse _ _
          · split
            · exact (h.takeTurn.showFetchFailure _ _).refuse _ _
            · next hp => exact (h.takeTurn.accept _ _).beginSingle _ (directedFetch_inRange hp)

theorem cmdApply (h : Solo c d e) : Solo c d (cmdApply c e) := by
  unfold Machine.cmdApply
  split
  · exact h.refuse _ _
  · split
    · exact h.refuse _ _
    · split
      · exact h.refuse _ _
      · dsimp only
        split
        · exact h.refuse _ _
        · split
          · exact (h.takeTurn.showFetchFailure _ _).refuse _ _
          · next hp => exact (h.takeTurn.accept _ _).beginApply _ (directedFetch_inRange hp)

theorem cmdClearHalt (h : Solo c d e) : Solo c d (cmdClearHalt c e) := by
  unfold Machine.cmdClearHalt
  split
  · exact (h.accept _ _).modChan (.ofFront (fun _ => restSettings_inRange) (.inl rfl))
  · exact h.refuse _ _

theorem argumentAt (h : Solo c d e) (v : BusWord) : Solo c d (argumentAt v c e) := h.modCtl
theorem overrunAt (h : Solo c d e) : Solo c d (overrunAt c e) := h.modCtl

/-! ### Timers -/

theorem dropTimer (h : Solo c d e) : Solo c d (dropTimer c e) := h.modCtl

theorem takeSettle (h : Solo c d e) : Solo c d (takeSettle c e) := by
  unfold Machine.takeSettle
  split
  · split
    · exact h.dropTimer.enterLockwait _
    · exact h.enterWait
    · exact h.dropTimer
  · exact h

theorem takeLockTimeout (h : Solo c d e) : Solo c d (takeLockTimeout c e) := by
  unfold Machine.takeLockTimeout
  split
  · split
    · exact h.dropTimer.endPoint _
    · exact h.dropTimer
  · exact h

theorem takeInterval (h : Solo c d e) : Solo c d (takeInterval c e) := by
  unfold Machine.takeInterval
  dsimp only
  split
  · split
    · split
      · split
        · exact h.dropTimer.fixList _
        · exact h.dropTimer.setTask _
      · exact h.dropTimer
    · exact h.dropTimer
  · exact h

/-! ### Grants -/

theorem channelGrant (h : Solo c d e) {f : Device → Device} (hf : ∀ e', Solo c d e' → Solo c d (f e')) :
    Solo c d (channelGrant c f e) := by
  unfold Machine.channelGrant
  split
  · exact hf _ (h.served _)
  · exact h

theorem checkGrant (h : Solo c d e) : Solo c d (checkGrant c e) := by
  unfold Machine.checkGrant
  split
  · exact (h.showProgress _).setTask _
  · exact h

theorem beginSweep (h : Solo c d e) : Solo c d (beginSweep c e) := by
  have hended := h.modCtl (f := fun k =>
      { endStatus .accepted k with seq := k.seq + 1, prior := none, selection := Selection.cleared, stopping := false })
    (fun k => .inl (by unfold endStatus; split <;> rfl))
  unfold Machine.beginSweep
  dsimp only
  split
  · exact hended.startWalk _
  · exact hended

theorem failCheck (h : Solo c d e) : Solo c d (failCheck c e) := by
  have hended := h.modCtl (f := endStatus .planInvalid) (fun k => .inl (by unfold endStatus; split <;> rfl))
  unfold Machine.failCheck
  dsimp only
  split
  · split
    · exact (hended.modCtl (by exact fun _ => Or.inr rfl)).raise
    · exact (hended.toRest _).raise
  · exact (hended.toRest _).raise

theorem takeCheckEnd (h : Solo c d e) : Solo c d (takeCheckEnd c e) := by
  unfold Machine.takeCheckEnd
  split
  · dsimp only
    split
    · exact (h.showResult _ _).beginSweep
    · exact (h.showResult _ _).failCheck
  · exact h

theorem walkGrant (h : Solo c d e) (waits : Bool) : Solo c d (walkGrant waits c e) := by
  unfold Machine.walkGrant
  split
  · split
    · exact h.startWalk _
    · next hp => exact (h.applyCurrent fun _ => walkRead_inRange hp).beginSettle _
    · exact (h.showFetchFailure _ _).haltChannel _ _ _ _
  · exact h

theorem selectedGrant (h : Solo c d e) : Solo c d (selectedGrant c e) := by
  unfold Machine.selectedGrant
  split
  · split
    · next hp => exact (h.applyCurrent fun _ => directedFetch_inRange hp).setTask _
    · exact (h.showFetchFailure _ _).haltChannel _ _ _ _
  · exact h

theorem singleGrant (h : Solo c d e) : Solo c d (singleGrant c e) := by
  unfold Machine.singleGrant
  split
  · split
    · next hp => exact (h.applyCurrent fun _ => directedFetch_inRange hp).enterApplied
    · exact (h.showFetchFailure _ _).haltChannel _ _ _ _
  · exact h

theorem fillRecord (h : Solo c d e) (r : Record) (a : After) : Solo c d (fillRecord r a c e) := by
  unfold Machine.fillRecord
  split
  · exact (h.writeRecord r).proceed a
  · split
    · exact (h.setTask _).raise
    · exact h.discardRecord.proceed a

theorem fillGrant (h : Solo c d e) : Solo c d (fillGrant c e) := by
  unfold Machine.fillGrant
  split
  · exact h.fillRecord _ _
  · exact h

theorem handbackTaken (h : Solo c d e) : Solo c d (handbackTaken c e) := h.modCtl

theorem fillStalled (h : Solo c d e) (r : Record) (a : After) : Solo c d (fillStalled r a c e) := by
  unfold Machine.fillStalled
  split
  · exact (h.writeRecord r).proceed a
  · exact h

theorem takeHandback (h : Solo c d e) : Solo c d (takeHandback c e) := by
  unfold Machine.takeHandback
  split
  · exact h
  · split
    · exact h.channelGrant fun _ h' => h'.handbackTaken.fillStalled _ _
    · exact h.handbackTaken

theorem listGrant (h : Solo c d e) : Solo c d (listGrant c e) := by
  unfold Machine.listGrant
  split
  · dsimp only
    split
    · exact h.fixList _
    · exact h.setTask _
  · exact h

theorem candidateGrant (h : Solo c d e) : Solo c d (candidateGrant c e) := by
  unfold Machine.candidateGrant
  dsimp only
  split
  · split
    · next hp => exact (h.setFront fun _ => directedFetch_inRange hp).beginSettle _
    · exact (h.showFetchFailure _ _).haltChannel _ _ _ _
  · exact h

theorem reapplyGrant (h : Solo c d e) : Solo c d (reapplyGrant c e) := by
  unfold Machine.reapplyGrant
  split
  · split
    · exact (h.showFetchFailure _ _).haltChannel _ _ _ _
    · next hp =>
      split
      · exact (h.setFront fun _ => directedFetch_inRange hp).afterReapply
      · exact ((h.applyCurrent fun _ => directedFetch_inRange hp).setTask _).raise
  · exact h

theorem closeGrant (h : Solo c d e) : Solo c d (closeGrant c e) := by
  unfold Machine.closeGrant
  dsimp only
  split
  · split
    · next hp => exact (h.setFront fun _ => directedFetch_inRange hp).enterApplied
    · exact (h.showFetchFailure _ _).haltChannel _ _ _ _
  · exact h

end Solo

end Sys2Proof.Machine
end

section
/-! What every happening of the part keeps: the canonical form of the RAM and its bytes outside a set of offsets, the membership rules
of the groups, the range of the front ends, the inequalities of the monitor counters and the range of RefDivider. -/

namespace Sys2Proof.Machine

-- One theorem after another: a thread for each would take the memory a check allows.
set_option Elab.async false

open Sys2Proof

/-! ### The rules channel by channel and group by group -/

/-- The monitor counters of a channel and their copies keep the inequalities. -/
def monitorOk (k : Channel) : Prop := monitorRule k.chk.monitor ∧ monitorRule k.snap.monitor

/-- What the membership rules say of one group. -/
structure GroupOk (x : Group) : Prop where
  leadIsMember : ∀ c, x.lead = some c → inMask x.members c = true
  runningHasLead : x.state ≠ .idle → x.lead.isSome = true
  idleIsQuiet : x.state = .idle → x.task = .idle ∧ x.current = none ∧ x.atBarrier = 0 ∧ x.barrier = none

/-- A channel is a member of at most one group. -/
def membersDisjoint (d : Device) : Prop :=
  ∀ g h c, inMask (d.group g).members c = true → inMask (d.group h).members c = true → g = h

theorem groupsRule_iff {d : Device} : groupsRule d ↔ membersDisjoint d ∧ ∀ g, GroupOk (d.group g) := by
  constructor
  · rintro ⟨hdisjoint, hlead, hrunning, hidle⟩
    exact ⟨hdisjoint, fun g => ⟨hlead g, hrunning g, hidle g⟩⟩
  · rintro ⟨hdisjoint, hok⟩
    exact ⟨hdisjoint, fun g => (hok g).leadIsMember, fun g => (hok g).runningHasLead, fun g => (hok g).idleIsQuiet⟩

theorem groupsRule.ok {d : Device} (h : groupsRule d) (g : Grp) : GroupOk (d.group g) := (groupsRule_iff.1 h).2 g

/-- A change of one group's record that takes in no member keeps the membership rules where it keeps the group's. -/
theorem groupsRule.modGroup {d : Device} (h : groupsRule d) {g : Grp} {f : Group → Group}
    (hm : ∀ c, inMask (f (d.group g)).members c = true → inMask (d.group g).members c = true) (hf : GroupOk (f (d.group g))) :
    groupsRule (modGroup g f d) := by
  have hin : ∀ k c, inMask ((Machine.modGroup g f d).group k).members c = true → inMask (d.group k).members c = true := by
    intro k c hc
    rw [modGroup_group] at hc
    split at hc
    · next hk => subst hk; exact hm c hc
    · exact hc
  refine groupsRule_iff.2 ⟨fun a b c ha hb => h.1 a b c (hin a c ha) (hin b c hb), fun k => ?_⟩
  rw [modGroup_group]
  split
  · exact hf
  · exact h.ok k

/-! ### The relation -/

/-- What leads from `d` to `e` keeps the rules; it writes the RAM at the offsets of `A` alone. -/
structure RulesKept (A : Nat → Prop) (d e : Device) : Prop where
  canonical : Memory.wf d.ram = true → Memory.wf e.ram = true
  bytes : ∀ a, ¬ A a → ramByte e a = ramByte d a
  groupRules : groupsRule d → groupsRule e
  fronts : ∀ c, frontOk (d.chan c) → frontOk (e.chan c)
  monitors : ∀ c, monitorOk (d.chan c) → monitorOk (e.chan c)
  divider : refDividerRule d → refDividerRule e

/-- A happening or an access leads from `d` to `e`: it keeps the rules, and no reset begins or ends. -/
structure Keeps (A : Nat → Prop) (d e : Device) : Prop extends RulesKept A d e where
  held : e.held = d.held

/-- The offsets of `A` hold channel `c`'s ring. -/
def holdsRing (A : Nat → Prop) (c : Chan) : Prop := ∀ a, inRing c a → A a

/-- A change of one channel that keeps its front end in range and its counters' inequalities. -/
structure ChanKept (k k' : Channel) : Prop where
  front : frontOk k → frontOk k'
  monitor : monitorOk k → monitorOk k'

theorem OwnWork.kept {k k' : Channel} (h : OwnWork k k') : ChanKept k k' where
  front := h.fronts
  monitor hk := ⟨by rw [h.checker]; exact hk.1, by rw [h.snap]; exact hk.2⟩

/-- A change that leaves the front end, the copy on its way, the monitor counters and the snapshot alone. -/
theorem ChanKept.ofSame {k k' : Channel} (hf : k'.front = k.front := by rfl)
    (hm : k'.ctl.message = k.ctl.message := by rfl) (hc : k'.chk.monitor = k.chk.monitor := by rfl)
    (hs : k'.snap = k.snap := by rfl) : ChanKept k k' :=
  ⟨fun h => ⟨hf ▸ h.1, hm ▸ h.2⟩, fun h => ⟨hc ▸ h.1, hs ▸ h.2⟩⟩

theorem RulesKept.trans {A : Nat → Prop} {d e e' : Device} (h : RulesKept A d e) (h' : RulesKept A e e') : RulesKept A d e' where
  canonical := h'.canonical ∘ h.canonical
  bytes a ha := (h'.bytes a ha).trans (h.bytes a ha)
  groupRules := h'.groupRules ∘ h.groupRules
  fronts c := h'.fronts c ∘ h.fronts c
  monitors c := h'.monitors c ∘ h.monitors c
  divider := h'.divider ∘ h.divider

namespace Keeps

variable {A : Nat → Prop} {d e e' : Device}

theorem refl (A : Nat → Prop) (d : Device) : Keeps A d d := ⟨⟨id, fun _ _ => rfl, id, fun _ => id, fun _ => id, id⟩, rfl⟩

theorem trans (h : Keeps A d e) (h' : Keeps A e e') : Keeps A d e' := ⟨h.toRulesKept.trans h'.toRulesKept, h'.held.trans h.held⟩

/-- Own work of a channel whose ring `A` holds. -/
theorem solo {c : Chan} (h : Keeps A d e) (hs : Solo c e e') (hA : holdsRing A c) : Keeps A d e' :=
  h.trans
    { canonical := hs.canonical
      bytes := fun a ha => hs.bytes a fun hr => ha (hA a hr)
      groupRules := fun hg => by
        have e1 : ∀ g, e'.group g = e.group g := hs.group
        simpa only [groupsRule, e1] using hg
      fronts := fun b hb => by
        by_cases hbc : b = c
        · subst hbc; exact hs.own.fronts hb
        · rw [hs.others b hbc]; exact hb
      monitors := fun b hb => by
        by_cases hbc : b = c
        · subst hbc; exact hs.own.kept.monitor hb
        · rw [hs.others b hbc]; exact hb
      divider := by simp only [refDividerRule, hs.time]; exact id
      held := hs.held }

/-- Own work of a channel that leaves the RAM alone. -/
theorem soloDry {c : Chan} (h : Keeps A d e) (hs : Solo c e e') (hr : e'.ram = e.ram) : Keeps A d e' := by
  refine h.trans ⟨⟨by rw [hr]; exact id, fun a _ => ?_, ?_, ?_, ?_, ?_⟩, hs.held⟩
  · have he : e'.epoch = e.epoch := by change (elsewhere e').epoch = (elsewhere e).epoch; rw [hs.frame]
    simp only [ramByte, hr, he]
  all_goals
    have hk := ((refl (fun _ => True) e).solo hs fun _ _ => trivial)
  · exact hk.groupRules
  · exact hk.fronts
  · exact hk.monitors
  · exact hk.divider

/-- A change of one channel. -/
theorem modChan (h : Keeps A d e) {c : Chan} {f : Channel → Channel} (hf : ChanKept (e.chan c) (f (e.chan c))) :
    Keeps A d (modChan c f e) :=
  h.trans
    { canonical := id
      bytes := fun _ _ => rfl
      groupRules := id
      fronts := fun b hb => by
        rw [modChan_chan]
        split
        · next hbc => subst hbc; exact hf.front hb
        · exact hb
      monitors := fun b hb => by
        rw [modChan_chan]
        split
        · next hbc => subst hbc; exact hf.monitor hb
        · exact hb
      divider := id
      held := rfl }

theorem modCtl (h : Keeps A d e) {c : Chan} {f : Controller → Controller}
    (hf : ∀ k, (f k).message = k.message ∨ (f k).message = none := by exact fun _ => Or.inl rfl) : Keeps A d (modCtl c f e) :=
  h.modChan (OwnWork.ofCtl (hf _)).kept

theorem raise (h : Keeps A d e) {c : Chan} {v : ChanEvent} : Keeps A d (raise c v e) := h.modChan (.ofSame)

theorem raiseIf (h : Keeps A d e) {b : Bool} {c : Chan} {v : ChanEvent} : Keeps A d (raiseIf b c v e) := by
  cases b
  · exact h
  · exact h.raise

/-- A change of every channel. -/
theorem mapChans (h : Keeps A d e) {f : Chan → Channel → Channel} (hf : ∀ c, ChanKept (e.chan c) (f c (e.chan c))) :
    Keeps A d (mapChans f e) :=
  h.trans
    { canonical := id
      bytes := fun _ _ => rfl
      groupRules := id
      fronts := fun b hb => by rw [mapChans_chan]; exact (hf b).front hb
      monitors := fun b hb => by rw [mapChans_chan]; exact (hf b).monitor hb
      divider := id
      held := rfl }

/-- A change of one group's record. -/
theorem modGroup (h : Keeps A d e) {g : Grp} {f : Group → Group}
    (hf : groupsRule d → GroupOk (e.group g) → GroupOk (f (e.group g)))
    (hm : ∀ c, inMask (f (e.group g)).members c = true → inMask (e.group g).members c = true := by exact fun _ h => h) :
    Keeps A d (modGroup g f e) where
  canonical := h.canonical
  bytes := h.bytes
  groupRules hd := (h.groupRules hd).modGroup hm (hf hd ((h.groupRules hd).ok g))
  fronts := h.fronts
  monitors := h.monitors
  divider := h.divider
  held := h.held

/-- A change of none of what the rules are about. -/
theorem ofSame (h : Keeps A d e) (hc : e'.chans = e.chans := by rfl) (hg : e'.groups = e.groups := by rfl)
    (hr : e'.ram = e.ram := by rfl) (hp : e'.epoch = e.epoch := by rfl)
    (ht : e'.time.refDivider = e.time.refDivider := by rfl) (hh : e'.held = e.held := by rfl) : Keeps A d e' :=
  h.trans
    { canonical := by rw [hr]; exact id
      bytes := fun a _ => by simp only [ramByte, hr, hp]
      groupRules := by simp only [groupsRule, Device.group, hg]; exact id
      fronts := fun b => by simp only [Device.chan, hc]; exact id
      monitors := fun b => by simp only [Device.chan, hc]; exact id
      divider := by simp only [refDividerRule, ht]; exact id
      held := hh }

theorem devRaise (h : Keeps A d e) {v : DevEvent} : Keeps A d (devRaise v e) := h.ofSame
theorem badWrite (h : Keeps A d e) {w : WriteFault} {o : Nat} : Keeps A d (badWrite w o e) := h.ofSame
theorem modPreload (h : Keeps A d e) {f : Preload → Preload} : Keeps A d (modPreload f e) := h.ofSame
theorem served (h : Keeps A d e) {r : Requester} : Keeps A d (served r e) := h.ofSame
theorem servedGroup (h : Keeps A d e) {g : Grp} : Keeps A d (servedGroup g e) := h.ofSame
theorem countFree (h : Keeps A d e) : Keeps A d { e with free := e.free + 1 } := h.ofSame

theorem paceRefresh (h : Keeps A d e) : Keeps A d (paceRefresh e) := by
  unfold Machine.paceRefresh
  split
  · split
    · exact h
    · exact h.ofSame
  · exact h.ofSame

/-! ### Several channels or groups in turn -/

theorem foldl {α : Type} (h : Keeps A d e) {f : Device → α → Device} (l : List α) (hf : ∀ e' a, Keeps A d e' → Keeps A d (f e' a)) :
    Keeps A d (l.foldl f e) := by
  induction l generalizing e with
  | nil => exact h
  | cons a l ih => exact ih (hf e a h)

theorem forChans (h : Keeps A d e) {f : Chan → Device → Device} (hf : ∀ c e', Keeps A d e' → Keeps A d (f c e')) :
    Keeps A d (forChans f e) := h.foldl allChans fun e' c => hf c e'

theorem forMask (h : Keeps A d e) {m : BitVec 8} {f : Chan → Device → Device} (hf : ∀ c e', Keeps A d e' → Keeps A d (f c e')) :
    Keeps A d (forMask m f e) :=
  h.foldl allChans fun e' c h' => by
    split
    · exact hf c e' h'
    · exact h'

theorem forGroups (h : Keeps A d e) {f : Grp → Device → Device} (hf : ∀ g e', Keeps A d e' → Keeps A d (f g e')) :
    Keeps A d (forGroups f e) := h.foldl allGroups fun e' g => hf g e'

/-! ### Checkers -/

theorem atChecker (h : Keeps A d e) {c : Chan} {f : Checker → CheckerStep}
    (hf : monitorRule (e.chan c).chk.monitor → monitorRule (f (e.chan c).chk).chk.monitor) : Keeps A d (atChecker c f e) :=
  h.modChan ⟨id, fun hk => ⟨hf hk.1, hk.2⟩⟩

theorem reportChanged (h : Keeps A d e) {r : Chan} {p : Bool} : Keeps A d (reportChanged r p e) := by
  have hreport : ∀ k : Checker, (chkReport p k).chk.monitor = k.monitor := fun k => by
    unfold chkReport
    split <;> rfl
  unfold Machine.reportChanged
  split
  · refine h.forChans fun c e' h' => ?_
    split
    · exact h'.atChecker (by rw [hreport]; exact id)
    · exact h'
  · exact h

end Keeps

end Sys2Proof.Machine
end

section
/-! The Pace Controller's operations keep the rules of the part. -/

namespace Sys2Proof.Machine

-- One theorem after another: a thread for each would take the memory a check allows.
set_option Elab.async false

open Sys2Proof

/-! ### Masks -/

theorem inMask_maskErase (m : BitVec 8) (b c : Chan) : inMask (maskErase m c) b = (inMask m b && b != c) := by
  have h : ∀ b c : Fin 8, (~~~(BitVec.ofNat 8 (2 ^ c.val))).getLsbD b.val = (b != c) := by decide
  simp only [inMask, maskErase, BitVec.getLsbD_and, h]

theorem maskErase_zero (c : Chan) : maskErase 0 c = 0 := by simp [maskErase]

/-! ### One group's record -/

namespace GroupOk

variable {x y : Group}

theorem running (h : GroupOk x) (ht : x.task ≠ .idle) : x.state ≠ .idle := fun hs => ht (h.idleIsQuiet hs).1

/-- A change of a running group that keeps Members, Lead and State. -/
theorem ofRunning (h : GroupOk x) (hs : x.state ≠ .idle) (hm : y.members = x.members) (hl : y.lead = x.lead)
    (hst : y.state = x.state) : GroupOk y where
  leadIsMember c hc := by rw [hm]; exact h.leadIsMember c (hl ▸ hc)
  runningHasLead _ := by rw [hl]; exact h.runningHasLead hs
  idleIsQuiet hy := absurd (hst ▸ hy) hs

/-- A group record with what an IDLE group holds. -/
theorem ofQuiet (h : GroupOk x) (hm : y.members = x.members) (hl : y.lead = x.lead)
    (hq : y.task = .idle ∧ y.current = none ∧ y.atBarrier = 0 ∧ y.barrier = none) (hst : y.state = .idle) : GroupOk y where
  leadIsMember c hc := by rw [hm]; exact h.leadIsMember c (hl ▸ hc)
  runningHasLead hy := absurd hst hy
  idleIsQuiet _ := hq

/-- A change that lets go of the barrier or of members at it. -/
theorem ofBarrier (h : GroupOk x) (hm : y.members = x.members) (hl : y.lead = x.lead) (hst : y.state = x.state)
    (ht : y.task = x.task) (hc : y.current = x.current) (ha : x.atBarrier = 0 → y.atBarrier = 0)
    (hb : x.barrier = none → y.barrier = none) : GroupOk y where
  leadIsMember c h' := by rw [hm]; exact h.leadIsMember c (hl ▸ h')
  runningHasLead hy := by rw [hl]; exact h.runningHasLead (hst ▸ hy)
  idleIsQuiet hy := by
    obtain ⟨htask, hcurrent, hat, hbarrier⟩ := h.idleIsQuiet (hst ▸ hy)
    exact ⟨ht.trans htask, hc.trans hcurrent, ha hat, hb hbarrier⟩

theorem leaveBarrier (h : GroupOk x) (c : Chan) : GroupOk (leaveBarrier c x) :=
  h.ofBarrier rfl rfl rfl rfl rfl (fun ha => by rw [leaveBarrier_atBarrier, ha, maskErase_zero]) id

theorem leaveRecord (h : GroupOk x) {c : Chan} (hl : x.lead ≠ some c) : GroupOk (leaveRecord c x) where
  leadIsMember b hb := by
    have hne : b ≠ c := fun hbc => hl (hbc ▸ hb)
    rw [leaveRecord_members, inMask_maskErase, h.leadIsMember b hb]
    simpa using hne
  runningHasLead hy := h.runningHasLead hy
  idleIsQuiet hy := (h.leaveBarrier c).idleIsQuiet hy

end GroupOk

/-! ### What the Pace Controller's operations leave of the groups -/

@[simp] theorem paceRefresh_groups (d : Device) : (paceRefresh d).groups = d.groups := by
  unfold paceRefresh
  split
  · split <;> rfl
  · rfl

@[simp] theorem paceRefresh_chans (d : Device) : (paceRefresh d).chans = d.chans := by
  unfold paceRefresh
  split
  · split <;> rfl
  · rfl

@[simp] theorem paceRefresh_group (d : Device) (g : Grp) : (paceRefresh d).group g = d.group g := by
  simp only [Device.group, paceRefresh_groups]

theorem foldl_groups {α : Type} {f : Device → α → Device} (hf : ∀ e a, (f e a).groups = e.groups) (l : List α) (d : Device) :
    (l.foldl f d).groups = d.groups := by
  induction l generalizing d with
  | nil => rfl
  | cons a l ih => rw [List.foldl_cons, ih, hf]

theorem forMask_groups {m : BitVec 8} {f : Chan → Device → Device} (hf : ∀ c e, (f c e).groups = e.groups) (d : Device) :
    (forMask m f d).groups = d.groups :=
  foldl_groups (fun e c => by split; exacts [hf c e, rfl]) _ d

@[simp] theorem mapChans_groups (f : Chan → Channel → Channel) (d : Device) : (mapChans f d).groups = d.groups := rfl

@[simp] theorem mapChans_group (f : Chan → Channel → Channel) (d : Device) (g : Grp) : (mapChans f d).group g = d.group g := rfl

@[simp] theorem handAll_groups (g : Grp) (m : GroupMessage) (d : Device) : (handAll g m d).groups = d.groups := by
  rw [handAll_eq]; rfl

@[simp] theorem atMembers_groups (g : Grp) (f : Controller → Controller) (d : Device) : (atMembers g f d).groups = d.groups := by
  rw [atMembers_eq]; rfl

theorem atLead_groups {g : Grp} {f : Chan → Device → Device} (hf : ∀ c e, (f c e).groups = e.groups) (d : Device) :
    (atLead g f d).groups = d.groups := by
  unfold atLead
  split
  · exact hf _ d
  · rfl

/-- A group's record after its quiet return to IDLE; the others are as they were. -/
theorem quietClose_group (g h : Grp) (d : Device) :
    (quietClose g d).group h = if h = g then groupClosed none (d.group g) else d.group h := by
  rw [quietClose_eq, paceRefresh_group, modGroup_group, mapChans_group, mapChans_group]

theorem closeGroup_group (g h : Grp) (o : SweepOutcome) (d : Device) :
    (closeGroup g o d).group h = if h = g then groupClosed (some o) (d.group g) else d.group h := by
  simp only [closeGroup, devRaise_group, modGroup_group, quietClose_group]
  split
  · simp [groupClosed]
  · rfl

namespace Keeps

variable {A : Nat → Prop} {d e : Device} {g : Grp} {c : Chan}

theorem atMembers (h : Keeps A d e) {f : Controller → Controller}
    (hf : ∀ k, (f k).message = k.message ∨ (f k).message = none := by exact fun _ => Or.inl rfl) : Keeps A d (atMembers g f e) := by
  rw [atMembers_eq]
  refine h.mapChans fun b => ?_
  split
  · exact (OwnWork.ofCtl (hf _)).kept
  · exact .ofSame

theorem handAll (h : Keeps A d e) {m : GroupMessage} (hm : messageInRange (some m)) : Keeps A d (handAll g m e) := by
  rw [handAll_eq]
  refine h.mapChans fun b => ?_
  split
  · exact ⟨fun hb => ⟨hb.1, hm⟩, id⟩
  · exact .ofSame

theorem atLead (h : Keeps A d e) {f : Chan → Device → Device} (hf : ∀ c, Keeps A d (f c e)) : Keeps A d (atLead g f e) := by
  unfold Machine.atLead
  split
  · exact hf _
  · exact h

theorem quietClose (h : Keeps A d e) : Keeps A d (quietClose g e) := by
  rw [quietClose_eq]
  refine ((h.mapChans fun b => ?_).modGroup fun _ hx => hx.ofQuiet rfl rfl ⟨rfl, rfl, rfl, rfl⟩ rfl).paceRefresh
  split <;> exact .ofSame

theorem closeGroup (h : Keeps A d e) {o : SweepOutcome} : Keeps A d (closeGroup g o e) := by
  refine Keeps.devRaise (h.quietClose.modGroup fun _ hx => ?_)
  exact hx.ofBarrier rfl rfl rfl rfl rfl id id

theorem showAbandoned (h : Keeps A d e) : Keeps A d (showAbandoned c e) := h.modCtl

theorem toRest (h : Keeps A d e) {st : ChanState} : Keeps A d (toRest c st e) :=
  h.modChan (OwnWork.ofFront (fun _ => restSettings_inRange) (.inr rfl)).kept

theorem restMembers (h : Keeps A d e) {m : BitVec 8} {p : Device → Chan → Bool} :
    Keeps A d (Machine.forMask m (fun c d => if p d c then Machine.toRest c .idle d else d) e) :=
  h.forMask fun c e' h' => by
    split
    · exact h'.toRest
    · exact h'

theorem abandonGroupCheck (h : Keeps A d e) : Keeps A d (abandonGroupCheck g e) :=
  (h.atLead fun _ => h.showAbandoned).restMembers.quietClose

theorem groupAbort (h : Keeps A d e) : Keeps A d (groupAbort g e) :=
  Keeps.closeGroup (h.handAll (m := .abort _) trivial)
theorem groupHalt (h : Keeps A d e) {i : Option Idx} : Keeps A d (groupHalt g i e) :=
  Keeps.closeGroup (h.handAll (m := .halt _ _) trivial)

theorem finishHalting (h : Keeps A d e) : Keeps A d (finishHalting g e) := by
  unfold Machine.finishHalting
  split
  · exact h
  · split
    · exact h.closeGroup
    · exact (h.atLead fun _ => h.showAbandoned).quietClose

theorem setHalting (h : Keeps A d e) : Keeps A d (setHalting g e) :=
  (h.modGroup fun _ hx => hx.ofBarrier rfl rfl rfl rfl rfl id fun _ => rfl).paceRefresh

theorem enterHalting (h : Keeps A d e) : Keeps A d (enterHalting g e) := by
  unfold Machine.enterHalting
  split
  · exact h
  · exact h.setHalting.finishHalting

/-- A task is given to a running group alone. -/
theorem groupTask (h : Keeps A d e) {f : Group → Group} (hrun : groupsRule d → (e.group g).state ≠ .idle)
    (hm : ∀ x, (f x).members = x.members := by exact fun _ => rfl) (hl : ∀ x, (f x).lead = x.lead := by exact fun _ => rfl)
    (hst : ∀ x, (f x).state = x.state := by exact fun _ => rfl) : Keeps A d (Machine.modGroup g f e) :=
  h.modGroup (fun hd hx => hx.ofRunning (hrun hd) (hm _) (hl _) (hst _)) (fun b hb => by rwa [hm] at hb)

theorem groupEnding (h : Keeps A d e) (hrun : groupsRule d → (e.group g).state ≠ .idle) : Keeps A d (groupEnding g e) := by
  unfold Machine.groupEnding
  dsimp only
  split
  · exact Keeps.closeGroup (h.handAll (m := .ending none _) trivial)
  · exact (h.groupTask hrun).paceRefresh

theorem groupWalkFrom (h : Keeps A d e) {start : Nat} (hrun : groupsRule d → (e.group g).state ≠ .idle) :
    Keeps A d (groupWalkFrom g start e) := by
  unfold Machine.groupWalkFrom
  split
  · exact h
  · split
    · exact h.groupEnding hrun
    · exact (h.groupTask hrun).paceRefresh

theorem release (h : Keeps A d e) (hrun : groupsRule d → (e.group g).state ≠ .idle) : Keeps A d (release g e) := by
  have hfolded := h.groupTask (f := fun x => { x with
    selection := groupFold x, atBarrier := 0, reports := Eight.build fun _ => none, barrier := none }) hrun
  unfold Machine.release
  dsimp only
  split
  · exact hfolded.groupEnding fun hd => by rw [modGroup_group_self]; exact hrun hd
  · split
    · exact hfolded
    · refine hfolded.atMembers.groupWalkFrom fun hd => ?_
      rw [Device.group, atMembers_groups, ← Device.group, modGroup_group_self]; exact hrun hd

theorem afterEjection (h : Keeps A d e) : Keeps A d (afterEjection g e) := by
  unfold Machine.afterEjection
  dsimp only
  split
  · exact h.finishHalting
  · split
    · exact h.modGroup fun _ hx => hx.ofBarrier rfl rfl rfl rfl rfl id fun _ => rfl
    · next hat =>
      split
      · exact h.release fun hd hidle => hat (((h.groupRules hd).ok g).idleIsQuiet hidle).2.2.1
      · exact h

theorem ejectedChannel (h : Keeps A d e) (hA : holdsRing A c) {under : Option PointOutcome} {st : ChanState} :
    Keeps A d (ejectedChannel under st c e) := h.solo ((Solo.refl c e).ejectedChannel under st) hA

end Keeps

/-- An ejection but for what follows at the group: the channel's ending record and rest, its halt report taken, and the channel out of
the group's record (R126). -/
def ejectedOut (g : Grp) (under : Option PointOutcome) (st : ChanState) (cause : HaltCause) (c : Chan) (d : Device) : Device :=
  let part := takesPart d g c
  let d0 := if (d.ctl c).haltReport then setHalting g d else d
  let d1 := if part then ejectedChannel under st c d0 else d0
  let d2 :=
    if part && st = .halted then modCtl c (fun k => { k with haltCause := cause, haltReport := false }) d1
    else modCtl c (fun k => { k with haltReport := false }) d1
  raiseIf (part && st = .halted) c .halt
    (raiseIf (part && (d.group g).begun) c .sweepEnd (raise c .ejected (modGroup g (leaveRecord c) d2)))

theorem eject_eq_afterEjection (g : Grp) (under : Option PointOutcome) (st : ChanState) (cause : HaltCause) (c : Chan) (d : Device) :
    eject g under st cause c d = afterEjection g (ejectedOut g under st cause c d) := rfl

@[simp] theorem raiseIf_groups (b : Bool) (c : Chan) (v : ChanEvent) (d : Device) : (raiseIf b c v d).groups = d.groups := by
  cases b <;> rfl

@[simp] theorem raiseIf_group (b : Bool) (c : Chan) (v : ChanEvent) (d : Device) (g : Grp) :
    (raiseIf b c v d).group g = d.group g := by
  cases b <;> rfl

/-- The groups after a channel has been taken out: its group's record without it, its barrier timer and halting condition aside. -/
theorem ejectedOut_group (g h : Grp) (under : Option PointOutcome) (st : ChanState) (cause : HaltCause) (c : Chan) (d : Device) :
    (ejectedOut g under st cause c d).group h =
      if h = g then
        leaveRecord c (if (d.ctl c).haltReport then { d.group g with halting := true, barrier := none } else d.group g)
      else d.group h := by
  have hsolo : ∀ e : Device, ∀ k, (ejectedChannel under st c e).group k = e.group k := fun e k =>
    ((Solo.refl c e).ejectedChannel under st).group k
  simp only [ejectedOut, raiseIf_group, raise_group, modGroup_group]
  split
  · congr 1
    split <;> split <;> split <;> simp [setHalting, hsolo]
  · next hne => split <;> split <;> split <;> simp [setHalting, hsolo, modGroup_group, hne]

namespace Keeps

variable {A : Nat → Prop} {d e : Device} {g : Grp} {c : Chan}

/-- Who is ejected does not lead the group. -/
theorem ejectedOut (h : Keeps A d e) (hA : holdsRing A c) (hl : groupsRule d → (e.group g).lead ≠ some c)
    {under : Option PointOutcome} {st : ChanState} {cause : HaltCause} : Keeps A d (ejectedOut g under st cause c e) := by
  have h0 : Keeps A d (if (e.ctl c).haltReport then Machine.setHalting g e else e) := by
    split
    · exact h.setHalting
    · exact h
  have hl0 : ((if (e.ctl c).haltReport then Machine.setHalting g e else e).group g).lead = (e.group g).lead := by
    split
    · simp [Machine.setHalting]
    · rfl
  unfold Machine.ejectedOut
  dsimp only
  generalize (if (e.ctl c).haltReport then Machine.setHalting g e else e) = e0 at h0 hl0
  have h1 : Keeps A d (if takesPart e g c then Machine.ejectedChannel under st c e0 else e0) := by
    split
    · exact h0.ejectedChannel hA
    · exact h0
  have hl1 : ((if takesPart e g c then Machine.ejectedChannel under st c e0 else e0).group g).lead = (e.group g).lead := by
    split
    · rw [((Solo.refl c e0).ejectedChannel under st).group]; exact hl0
    · exact hl0
  generalize (if takesPart e g c then Machine.ejectedChannel under st c e0 else e0) = e1 at h1 hl1
  have hout : ∀ f : Controller → Controller, (∀ k, (f k).message = k.message) →
      Keeps A d (Machine.modGroup g (leaveRecord c) (Machine.modCtl c f e1)) := fun f hf => by
    refine (h1.modCtl fun k => .inl (hf k)).modGroup (fun hd hx => hx.leaveRecord ?_) fun b hb => ?_
    · rw [modCtl_group, hl1]; exact hl hd
    · rw [leaveRecord_members, inMask_maskErase, Bool.and_eq_true] at hb; exact hb.1
  refine raiseIf (raiseIf (raise ?_))
  split
  · exact hout _ fun _ => rfl
  · exact hout _ fun _ => rfl

theorem eject (h : Keeps A d e) (hA : holdsRing A c) (hl : groupsRule d → (e.group g).lead ≠ some c)
    {under : Option PointOutcome} {st : ChanState} {cause : HaltCause} : Keeps A d (eject g under st cause c e) := by
  rw [eject_eq_afterEjection]; exact (h.ejectedOut hA hl).afterEjection

theorem leadAborts (h : Keeps A d e) (hA : holdsRing A c) {waits : Bool} {under : Option PointOutcome} {st : ChanState} :
    Keeps A d (leadAborts waits g under st c e) := by
  have haborted := h.groupAbort (g := g)
  unfold Machine.leadAborts
  dsimp only
  split
  · split
    · exact haborted.solo ((Solo.refl c _).memberHalts _ _ _ _ _ _) hA
    · exact haborted.solo ((Solo.refl c _).memberAborts _ _ _ _) hA
  · exact haborted

theorem groupStart (h : Keeps A d e) {x : SweepConfig} {w : Window} (hl : (e.group g).lead = some c) :
    Keeps A d (groupStart g c x w e) := by
  have hstarted := h.modGroup (g := g) (f := fun y => { y with
      state := .running, current := none, atBarrier := 0, selection := Selection.cleared, task := .check (checkStart w),
      begun := false, halting := false, force := some x, window := some w, reports := Eight.build fun _ => none, barrier := none })
    fun _ hx => ⟨hx.leadIsMember, fun _ => by simp [hl], fun hs => by cases hs⟩
  exact ((hstarted.forMask fun b e' h' => h'.modCtl (by exact fun _ => Or.inr rfl)).modCtl).paceRefresh

end Keeps

end Sys2Proof.Machine
end

section
/-! The channel commands keep the rules of the part, and which of them leave the shared RAM alone. -/

namespace Sys2Proof.Machine

-- One theorem after another: a thread for each would take the memory a check allows.
set_option Elab.async false

open Sys2Proof

/-! ### Work that leaves the RAM alone -/

section Dry

variable (c : Chan) (d : Device)

@[simp] theorem refuse_ram (code : BitVec 8) (st : LastStatus) : (refuse code st c d).ram = d.ram := rfl
@[simp] theorem accept_ram (code : BitVec 8) (st : LastStatus) : (accept code st c d).ram = d.ram := rfl
@[simp] theorem setTask_ram (t : Task) : (setTask c t d).ram = d.ram := rfl
@[simp] theorem toRest_ram (st : ChanState) : (toRest c st d).ram = d.ram := rfl
@[simp] theorem enterDwell_ram (p : Copy) : (enterDwell c p d).ram = d.ram := rfl
@[simp] theorem enterWait_ram : (enterWait c d).ram = d.ram := rfl
@[simp] theorem enterTrack_ram : (enterTrack c d).ram = d.ram := rfl
@[simp] theorem fixList_ram (l : List Idx) : (fixList c l d).ram = d.ram := rfl
@[simp] theorem dropTimer_ram : (dropTimer c d).ram = d.ram := rfl
@[simp] theorem applyCurrent_ram (p : Copy) : (applyCurrent c p d).ram = d.ram := rfl
@[simp] theorem beginCheck_ram : (beginCheck c d).ram = d.ram := rfl
@[simp] theorem showFetchFailure_ram (r : CheckResult) (i : Idx) : (showFetchFailure c r i d).ram = d.ram := rfl
@[simp] theorem showResult_ram (r : CheckResult) (i : Idx) : (showResult c r i d).ram = d.ram := rfl

@[simp] theorem showProgress_ram (p : CheckProgress) : (showProgress c p d).ram = d.ram := by cases p <;> rfl

@[simp] theorem enterLockwait_ram (p : Copy) : (enterLockwait c p d).ram = d.ram := by
  unfold enterLockwait; dsimp only; split <;> rfl

@[simp] theorem beginSettle_ram (p : Copy) : (beginSettle c p d).ram = d.ram := by
  unfold beginSettle; dsimp only; split
  · exact enterLockwait_ram c _ p
  · rfl

@[simp] theorem takeCopy_ram (p : Copy) : (takeCopy c p d).ram = d.ram := beginSettle_ram c _ p

@[simp] theorem takeEnding_ram (p : Option Copy) (f : Figures) : (takeEnding c p f d).ram = d.ram := by cases p <;> rfl

@[simp] theorem sweepEnding_ram : (sweepEnding c d).ram = d.ram := by unfold sweepEnding; dsimp only; split <;> rfl

@[simp] theorem startWalk_ram (n : Nat) : (startWalk c n d).ram = d.ram := by
  unfold startWalk; split
  · rfl
  · split
    · exact sweepEnding_ram c d
    · rfl

@[simp] theorem beginSweep_ram : (beginSweep c d).ram = d.ram := by
  unfold beginSweep; dsimp only; split
  · exact startWalk_ram c _ _
  · rfl

@[simp] theorem failCheck_ram : (failCheck c d).ram = d.ram := by
  unfold failCheck; dsimp only; split
  · split <;> rfl
  · rfl

@[simp] theorem takeCheckEnd_ram : (takeCheckEnd c d).ram = d.ram := by
  unfold takeCheckEnd; split
  · dsimp only; split
    · exact beginSweep_ram c _
    · exact failCheck_ram c _
  · rfl

@[simp] theorem checkGrant_ram : (checkGrant c d).ram = d.ram := by
  unfold checkGrant; split
  · rw [setTask_ram, showProgress_ram]
  · rfl

@[simp] theorem listGrant_ram : (listGrant c d).ram = d.ram := by
  unfold listGrant; split
  · dsimp only; split <;> rfl
  · rfl

@[simp] theorem takeSettle_ram : (takeSettle c d).ram = d.ram := by
  unfold takeSettle; split
  · split
    · exact enterLockwait_ram c _ _
    · rfl
    · rfl
  · rfl

@[simp] theorem takeInterval_ram : (takeInterval c d).ram = d.ram := by
  unfold takeInterval; dsimp only; split
  · split
    · split
      · split <;> rfl
      · rfl
    · rfl
  · rfl

@[simp] theorem cmdStartTrack_ram : (cmdStartTrack c d).ram = d.ram := by
  unfold cmdStartTrack; repeat' split
  all_goals rfl

@[simp] theorem cmdClearHalt_ram : (cmdClearHalt c d).ram = d.ram := by unfold cmdClearHalt; split <;> rfl

@[simp] theorem cmdApply_ram : (cmdApply c d).ram = d.ram := by
  unfold cmdApply; dsimp only; repeat' split
  all_goals rfl

@[simp] theorem cmdSingle_ram : (cmdSingle c d).ram = d.ram := by
  unfold cmdSingle; dsimp only; repeat' split
  any_goals rfl
  all_goals exact beginSettle_ram c _ _

theorem channelGrant_ram {f : Device → Device} (hf : ∀ e, (f e).ram = e.ram) : (channelGrant c f d).ram = d.ram := by
  unfold channelGrant; split
  · exact hf _
  · rfl

end Dry

/-! ### Groups that a channel leads or leaves -/

theorem leads_false {d : Device} {g : Grp} {c : Chan} (h : ¬ leads d g c = true) : (d.group g).lead ≠ some c := by
  simpa [leads] using h

/-- A channel's own group, where its sweep runs, is in RUNNING or STOPPING, and the channel is a member. -/
theorem runningGroup_some {d : Device} {c : Chan} {g : Grp} (h : runningGroup d c = some g) :
    (d.group g).state ≠ .idle ∧ inMask (d.group g).members c = true := by
  unfold runningGroup at h
  split at h
  · next hg =>
    split at h
    · cases h
    · next hs => cases h; exact ⟨hs, groupOf_some hg⟩
  · cases h

theorem runningGroup_none {d : Device} (hr : groupsRule d) {c : Chan} (h : runningGroup d c = none) {g : Grp}
    (hm : inMask (d.group g).members c = true) : (d.group g).state = .idle := by
  unfold runningGroup at h
  rw [groupOf_of hr hm] at h
  by_contra hs
  simp [hs] at h

/-- No group that channel `c` is a member of is in RUNNING or STOPPING. -/
def inNoSweep (c : Chan) (d : Device) : Prop := ∀ g, inMask (d.group g).members c = true → (d.group g).state = .idle

theorem closeGroup_state (g : Grp) (o : SweepOutcome) (d : Device) : ((closeGroup g o d).group g).state = .idle := by
  rw [closeGroup_group, if_pos rfl]; rfl

theorem quietClose_state (g : Grp) (d : Device) : ((quietClose g d).group g).state = .idle := by
  rw [quietClose_group, if_pos rfl]; rfl

theorem leadAborts_group (waits : Bool) (g h : Grp) (under : Option PointOutcome) (st : ChanState) (c : Chan) (d : Device) :
    (leadAborts waits g under st c d).group h = (groupAbort g d).group h := by
  unfold leadAborts
  dsimp only
  split
  · split
    · exact ((Solo.refl c _).memberHalts _ _ _ _ _ _).group h
    · exact ((Solo.refl c _).memberAborts _ _ _ _).group h
  · rfl

@[simp] theorem showAbandoned_groups (c : Chan) (d : Device) : (showAbandoned c d).groups = d.groups := rfl
@[simp] theorem toRest_groups (c : Chan) (st : ChanState) (d : Device) : (toRest c st d).groups = d.groups := rfl

theorem groupAbort_group (g h : Grp) (d : Device) :
    (groupAbort g d).group h = if h = g then groupClosed (some .aborted) (d.group g) else d.group h := by
  rw [groupAbort, closeGroup_group]
  simp only [Device.group, handAll_groups]

theorem abandonGroupCheck_group (g h : Grp) (d : Device) :
    (abandonGroupCheck g d).group h = if h = g then groupClosed none (d.group g) else d.group h := by
  have hgroups : ∀ k, (forMask ((atLead g showAbandoned d).group g).members
      (fun c d => if takesPart d g c then toRest c .idle d else d) (atLead g showAbandoned d)).group k = d.group k := fun k => by
    unfold Device.group
    rw [forMask_groups (fun c e => by split <;> rfl), atLead_groups (f := showAbandoned) fun _ _ => rfl]
  rw [abandonGroupCheck, quietClose_group, hgroups, hgroups]

/-- Who is in a group and who leads it. -/
def roles (x : Group) : BitVec 8 × Option Chan := (x.members, x.lead)

theorem modGroup_roles {f : Group → Group} (hf : ∀ x, roles (f x) = roles x) (g h : Grp) (d : Device) :
    roles ((modGroup g f d).group h) = roles (d.group h) := by
  rw [modGroup_group]
  split
  · next hg => subst hg; exact hf _
  · rfl

theorem closeGroup_roles (g h : Grp) (o : SweepOutcome) (d : Device) : roles ((closeGroup g o d).group h) = roles (d.group h) := by
  rw [closeGroup_group]
  split
  · next hg => subst hg; rfl
  · rfl

theorem groupEnding_roles (g h : Grp) (d : Device) : roles ((groupEnding g d).group h) = roles (d.group h) := by
  unfold groupEnding
  dsimp only
  split
  · rw [closeGroup_roles, Device.group, handAll_groups]; rfl
  · rw [paceRefresh_group]; exact modGroup_roles (by exact fun _ => rfl) g h d

theorem groupWalkFrom_roles (g h : Grp) (n : Nat) (d : Device) : roles ((groupWalkFrom g n d).group h) = roles (d.group h) := by
  unfold groupWalkFrom
  split
  · rfl
  · split
    · exact groupEnding_roles g h d
    · rw [paceRefresh_group]; exact modGroup_roles (by exact fun _ => rfl) g h d

theorem release_roles (g h : Grp) (d : Device) : roles ((release g d).group h) = roles (d.group h) := by
  unfold release
  dsimp only
  split
  · rw [groupEnding_roles]; exact modGroup_roles (by exact fun _ => rfl) g h d
  · split
    · exact modGroup_roles (by exact fun _ => rfl) g h d
    · rw [groupWalkFrom_roles, Device.group, atMembers_groups]; exact modGroup_roles (by exact fun _ => rfl) g h d

theorem quietClose_roles (g h : Grp) (d : Device) : roles ((quietClose g d).group h) = roles (d.group h) := by
  rw [quietClose_group]
  split
  · next hg => subst hg; rfl
  · rfl

theorem finishHalting_roles (g h : Grp) (d : Device) : roles ((finishHalting g d).group h) = roles (d.group h) := by
  unfold finishHalting
  split
  · rfl
  · split
    · exact closeGroup_roles g h _ d
    · rw [quietClose_roles, Device.group, atLead_groups (f := showAbandoned) fun _ _ => rfl]; rfl

theorem afterEjection_roles (g h : Grp) (d : Device) : roles ((afterEjection g d).group h) = roles (d.group h) := by
  unfold afterEjection
  dsimp only
  split
  · exact finishHalting_roles g h d
  · split
    · exact modGroup_roles (by exact fun _ => rfl) g h d
    · split
      · exact release_roles g h d
      · rfl

/-- An ejection takes the channel out of the group's Members and leaves the Lead. -/
theorem eject_roles (g h : Grp) (under : Option PointOutcome) (st : ChanState) (cause : HaltCause) (c : Chan) (d : Device) :
    roles ((eject g under st cause c d).group h) =
      if h = g then (maskErase (d.group g).members c, (d.group g).lead) else roles (d.group h) := by
  rw [eject_eq_afterEjection, afterEjection_roles, ejectedOut_group]
  split
  · next hg => subst hg; split <;> rfl
  · rfl

end Sys2Proof.Machine
end

section
/-! Commands, registers and checkers keep the rules of the part. -/

namespace Sys2Proof.Machine

-- One theorem after another: a thread for each would take the memory a check allows.
set_option Elab.async false

open Sys2Proof

/-! ### The monitor counters (R40) -/

theorem bitErrors_le (x y : LaneWord) : bitErrors x y ≤ 32 := by
  unfold bitErrors
  exact (List.length_filter_le _ _).trans (by simp)

/-- A counter that has not reached its maximum has counted in full. -/
theorem satAdd_toNat {w : Nat} {x : BitVec w} {n : Nat} (h : satAdd x n ≠ BitVec.allOnes w) :
    (satAdd x n).toNat = x.toNat + n ∧ x ≠ BitVec.allOnes w := by
  have hpos := Nat.two_pow_pos w
  have hne : (satAdd x n).toNat ≠ 2 ^ w - 1 := fun he => h (BitVec.eq_of_toNat_eq (by rw [he, BitVec.toNat_allOnes]))
  have hval : (satAdd x n).toNat = min (2 ^ w - 1) (x.toNat + n) := by
    rw [satAdd, BitVec.toNat_ofNat]; exact Nat.mod_eq_of_lt (by omega)
  refine ⟨by omega, fun hx => ?_⟩
  have hmax : x.toNat = 2 ^ w - 1 := by rw [hx, BitVec.toNat_allOnes]
  omega

theorem monitorRule_count {m : Monitor} {n : Nat} (hn : n ≤ 32) (h : monitorRule m) : monitorRule (monitorCount n m) := by
  intro hwords hbits herrored
  obtain ⟨hw, hw'⟩ := satAdd_toNat hwords
  obtain ⟨hb, hb'⟩ := satAdd_toNat hbits
  obtain ⟨he, he'⟩ := satAdd_toNat herrored
  obtain ⟨h1, h2⟩ := h hw' hb' he'
  have hone : (if n = 0 then 0 else 1) ≤ 1 := by split <;> omega
  simp only [monitorCount] at hw hb he ⊢
  omega

theorem monitorRule_zero : monitorRule Monitor.zero := fun _ _ _ => ⟨Nat.zero_le _, Nat.zero_le _⟩

section Checker

variable (k : Checker) (g : Generator) (w : LaneWord)

@[simp] theorem chkRestart_monitor : (chkRestart k).chk.monitor = k.monitor := by unfold chkRestart; split <;> rfl

@[simp] theorem chkBreak_monitor (r : Bool) : (chkBreak r k).chk.monitor = k.monitor := by unfold chkBreak; split <;> rfl

@[simp] theorem chkLeaveOff_monitor (r : Bool) : (chkLeaveOff r k).monitor = k.monitor := by
  unfold chkLeaveOff; split
  · rfl
  · split <;> rfl

@[simp] theorem chkModeOff_monitor : (chkModeOff k).chk.monitor = k.monitor := by unfold chkModeOff; split <;> rfl

@[simp] theorem chkModeWritten_monitor (r : Bool) : (chkModeWritten r k).chk.monitor = k.monitor := by
  unfold chkModeWritten; split
  · exact chkModeOff_monitor k
  · split
    · exact chkLeaveOff_monitor k r
    · exact chkRestart_monitor k

theorem searchLfsr_monitor : (searchLfsr w k).chk.monitor = k.monitor := by
  unfold searchLfsr; split
  · rfl
  · split
    · rfl
    · dsimp only; split <;> rfl

theorem searchUser_monitor : (searchUser g w k).chk.monitor = k.monitor := by unfold searchUser; dsimp only; split <;> rfl

theorem advanceReference_monitor : (advanceReference g k).monitor = k.monitor := by unfold advanceReference; split <;> rfl

theorem compareWord_monitor : (compareWord g w k).chk.monitor = monitorCount (bitErrors w (expectedWord g k)) k.monitor := by
  unfold compareWord; dsimp only; split_ifs <;> rfl

theorem chkWord_monitorRule (h : monitorRule k.monitor) : monitorRule (chkWord g w k).chk.monitor := by
  unfold chkWord
  split
  · exact h
  · exact h
  · split
    · rw [searchLfsr_monitor]; exact h
    · rw [searchLfsr_monitor]; exact h
    · rw [searchUser_monitor]; exact h
    · exact h
  · rw [compareWord_monitor]; exact monitorRule_count (bitErrors_le _ _) h

end Checker

/-! ### A channel leaves every group (R131) -/

theorem forGroups_modGroup (f : Group → Group) (d : Device) :
    forGroups (fun g => modGroup g f) d = { d with groups := Four.build fun g => f (d.group g) } := rfl

theorem modGroup_congr {g : Grp} {f f' : Group → Group} {d : Device} (h : f (d.group g) = f' (d.group g)) :
    modGroup g f d = modGroup g f' d := by
  simp only [modGroup]; unfold Device.group at h; rw [h]

theorem modGroup_same (g : Grp) (d : Device) : modGroup g (fun x => x) d = d := by simp [modGroup]

theorem leaveGroups_eq (c : Chan) (d : Device) : leaveGroups c d = { d with groups := Four.build fun g => leftBy c (d.group g) } := by
  rw [← forGroups_modGroup]
  unfold leaveGroups
  congr 1
  funext g e
  split
  · next hm => exact modGroup_congr (by rw [leftBy, if_pos hm]; rfl)
  · next hm => exact (modGroup_same g e).symm.trans (modGroup_congr (by rw [leftBy, if_neg hm]))

@[simp] theorem leaveGroups_group (c : Chan) (d : Device) (g : Grp) : (leaveGroups c d).group g = leftBy c (d.group g) := by
  rw [leaveGroups_eq]; exact Four.get_build _ g

theorem leftBy_members {c b : Chan} {x : Group} : inMask (leftBy c x).members b = (inMask x.members b && b != c) := by
  unfold leftBy
  split
  · exact inMask_maskErase x.members b c
  · next hc =>
    by_cases hb : b = c
    · subst hb; simpa using hc
    · simp [hb]

theorem GroupOk.leftBy {x : Group} (h : GroupOk x) {c : Chan} (hq : inMask x.members c = true → x.state = .idle) :
    GroupOk (leftBy c x) := by
  by_cases hm : inMask x.members c = true
  · have hidle : (Machine.leftBy c x).state = .idle := by rw [Machine.leftBy, if_pos hm]; exact hq hm
    refine ⟨fun b hb => ?_, fun hs => absurd hidle hs, fun _ => ?_⟩
    · rw [Machine.leftBy, if_pos hm] at hb
      dsimp only at hb
      split at hb
      · cases hb
      · next hne =>
        rw [leftBy_members, h.leadIsMember b hb]
        have : b ≠ c := fun hbc => hne (hbc ▸ hb)
        simpa using this
    · obtain ⟨ht, hc, ha, hb⟩ := h.idleIsQuiet (hq hm)
      rw [Machine.leftBy, if_pos hm]
      exact ⟨ht, hc, by dsimp only; rw [ha]; exact BitVec.zero_and, hb⟩
  · rw [Machine.leftBy, if_neg hm]; exact h

@[simp] theorem reportChanged_groups (r : Chan) (p : Bool) (d : Device) : (reportChanged r p d).groups = d.groups := by
  unfold reportChanged
  split
  · exact foldl_groups (fun e c => by dsimp only; split <;> rfl) _ d
  · rfl

/-- The channel alone as it enters OFF, and its lane with nothing sent. -/
def offAlone (c : Chan) (d : Device) : Device :=
  let d1 := modChan c (fun k => { k with
      front := restSettings, chk := chkEnterOff k.chk, ctl := { dropWork .off k.ctl with inbox := handedAtOff k.chk } }) d
  { d1 with lanes := { d1.lanes with tx := d1.lanes.tx.set c none } }

theorem powerDown_eq (c : Chan) (d : Device) :
    powerDown c d = if laneReport d c then reportChanged c false (offAlone c d) else offAlone c d := rfl

@[simp] theorem powerDown_groups (c : Chan) (d : Device) : (powerDown c d).groups = d.groups := by
  rw [powerDown_eq]
  split
  · rw [reportChanged_groups]; rfl
  · rfl

theorem powerDown_group (c : Chan) (d : Device) (g : Grp) : (powerDown c d).group g = d.group g := by
  rw [Device.group, powerDown_groups]; rfl

/-- A channel that has ended its work, as for OFF, is in no group whose sweep runs. -/
theorem endWork_inNoSweep {d : Device} (hr : groupsRule d) (c : Chan) : inNoSweep c (endWork c d) := by
  unfold endWork
  split
  · next g hg =>
    have hmember := (runningGroup_some hg).2
    have hother : ∀ h, h ≠ g → inMask (d.group h).members c = false := fun h hne => by
      by_contra hm
      exact hne (hr.1 h g c (by simpa using hm) hmember)
    intro h hm
    split at hm
    · split at hm
      · rw [leadAborts_group, groupAbort_group] at hm
        split at hm
        · next heq => subst heq; rw [if_pos ‹_›, if_pos ‹_›, leadAborts_group, groupAbort_group, if_pos rfl]; rfl
        · next hne => rw [hother h hne] at hm; cases hm
      · rw [abandonGroupCheck_group] at hm
        split at hm
        · next heq => subst heq; rw [if_pos ‹_›, if_neg ‹_›, abandonGroupCheck_group, if_pos rfl]; rfl
        · next hne => rw [hother h hne] at hm; cases hm
    · have hroles := eject_roles g h none .idle .none c d
      have hmask : ((eject g none .idle .none c d).group h).members = (roles ((eject g none .idle .none c d).group h)).1 := rfl
      rw [hmask, hroles] at hm
      split at hm
      · next heq => rw [inMask_maskErase] at hm; simp at hm
      · next hne => rw [show (roles (d.group h)).1 = (d.group h).members from rfl, hother h hne] at hm; cases hm
  · next hg =>
    intro h hm
    have hsame : (if (d.ctl c).task.inCheck = true then abandonCheck .idle c d else abortSweep c d).group h = d.group h := by
      split
      · exact ((Solo.refl c d).abandonCheck _).group h
      · exact (Solo.refl c d).abortSweep.group h
    rw [hsame] at hm ⊢
    exact runningGroup_none hr hg hm

/-- The commands that can write to their channel's ring: those that end work. -/
def endsWork (k : Command) : Bool :=
  match k with
  | .disable => true
  | .stop => true
  | .abort => true
  | .resetChannel => true
  | .enable | .startSweep | .startTrack | .single | .apply | .clearHalt | .clearCounters => false

namespace Keeps

variable {A : Nat → Prop} {d e : Device} {c : Chan}

theorem refuse (h : Keeps A d e) {code : BitVec 8} {st : LastStatus} : Keeps A d (refuse code st c e) := (h.modCtl).raise
theorem accept (h : Keeps A d e) {code : BitVec 8} {st : LastStatus} : Keeps A d (accept code st c e) := h.modCtl

/-! ### Powering a channel up and down -/

theorem powerUp (h : Keeps A d e) : Keeps A d (powerUp c e) := by
  have hon := h.modChan (c := c) (f := fun k => { k with
      front := restSettings, gen := genRestart k.gen, ctl := { k.ctl with state := .idle, current := none } })
    ⟨fun hk => ⟨restSettings_inRange, hk.2⟩, id⟩
  have hout := fun r => hon.modChan (c := c) (f := fun k => { k with chk := chkLeaveOff r k.chk })
    (.ofSame (hc := chkLeaveOff_monitor _ _))
  unfold Machine.powerUp
  dsimp only
  split
  · exact (hout _).reportChanged
  · exact hout _

theorem powerDown (h : Keeps A d e) : Keeps A d (powerDown c e) := by
  have hoff : Keeps A d (Machine.modChan c (fun k => { k with
      front := restSettings, chk := chkEnterOff k.chk, ctl := { dropWork .off k.ctl with inbox := handedAtOff k.chk } }) e) :=
    h.modChan ⟨fun _ => ⟨restSettings_inRange, trivial⟩, id⟩
  rw [powerDown_eq]
  split
  · exact hoff.ofSame.reportChanged
  · exact hoff.ofSame

theorem endWork (h : Keeps A d e) (hA : holdsRing A c) : Keeps A d (endWork c e) := by
  unfold Machine.endWork
  split
  · split
    · split
      · exact h.leadAborts hA
      · exact h.abandonGroupCheck
    · next hl => exact h.eject hA fun _ => leads_false hl
  · split
    · exact h.solo ((Solo.refl c e).abandonCheck _) hA
    · exact h.solo (Solo.refl c e).abortSweep hA

/-! ### Commands -/

theorem cmdEnable (h : Keeps A d e) : Keeps A d (cmdEnable c e) := by
  unfold Machine.cmdEnable
  split
  · exact h.refuse
  · split
    · exact h.refuse
    · split
      · exact h.refuse
      · exact h.accept.powerUp

theorem cmdDisable (h : Keeps A d e) (hA : holdsRing A c) : Keeps A d (cmdDisable c e) := by
  unfold Machine.cmdDisable
  dsimp only
  split
  · exact h.accept
  · exact (h.accept.endWork hA).powerDown

theorem cmdStartSweep (h : Keeps A d e) : Keeps A d (cmdStartSweep c e) := by
  unfold Machine.cmdStartSweep
  split
  · exact h.refuse
  · split
    · exact h.refuse
    · split
      · exact h.refuse
      · split
        · exact h.refuse
        · next hfollows =>
          split
          · exact h.refuse
          · split
            · next g hg =>
              have hlead : (e.group g).lead = some c := by simpa [followsOnly, hg, leads] using hfollows
              split
              · exact Keeps.groupStart h.accept hlead
              · exact h.refuse
            · exact h.accept.soloDry (Solo.refl c _).beginCheck rfl

theorem cmdStartTrack (h : Keeps A d e) : Keeps A d (cmdStartTrack c e) :=
  h.soloDry (Solo.refl c e).cmdStartTrack (cmdStartTrack_ram c e)

theorem cmdSingle (h : Keeps A d e) : Keeps A d (cmdSingle c e) := h.soloDry (Solo.refl c e).cmdSingle (cmdSingle_ram c e)
theorem cmdApply (h : Keeps A d e) : Keeps A d (cmdApply c e) := h.soloDry (Solo.refl c e).cmdApply (cmdApply_ram c e)

theorem cmdClearHalt (h : Keeps A d e) : Keeps A d (cmdClearHalt c e) :=
  h.soloDry (Solo.refl c e).cmdClearHalt (cmdClearHalt_ram c e)

theorem stopGroup (h : Keeps A d e) {g : Grp} (hl : (e.group g).lead = some c) : Keeps A d (stopGroup g e) := by
  unfold Machine.stopGroup
  split
  · exact Keeps.atMembers (h.modGroup fun _ hx => ⟨hx.leadIsMember, fun _ => by simp [hl], fun hs => by cases hs⟩)
  · exact h.abandonGroupCheck

theorem cmdStop (h : Keeps A d e) (hA : holdsRing A c) : Keeps A d (cmdStop c e) := by
  unfold Machine.cmdStop
  split
  · split
    · split
      · next hl => exact Keeps.stopGroup (c := c) h.accept (of_decide_eq_true hl)
      · exact h.refuse
    · exact h.accept.solo (Solo.refl c _).stopSweep hA
  · exact h.accept.solo (Solo.refl c _).stopTrack hA
  all_goals exact h.refuse

theorem abortMember (h : Keeps A d e) (hA : holdsRing A c) {g : Grp} : Keeps A d (abortMember g c e) := by
  unfold Machine.abortMember
  split
  · split
    · exact h.leadAborts hA
    · exact h.abandonGroupCheck
  · next hl => exact h.eject hA fun _ => leads_false hl

theorem cmdAbort (h : Keeps A d e) (hA : holdsRing A c) : Keeps A d (cmdAbort c e) := by
  unfold Machine.cmdAbort
  split
  · split
    · exact h.accept.abortMember hA
    · exact h.accept.solo (Solo.refl c _).abortSolo hA
  · exact h.accept.solo (Solo.refl c _).abortTrack hA
  all_goals exact h.refuse

theorem cmdClearCounters (h : Keeps A d e) : Keeps A d (cmdClearCounters c e) := by
  unfold Machine.cmdClearCounters
  split
  · exact h.refuse
  · exact h.accept.modChan ⟨id, fun hk => ⟨monitorRule_zero, hk.2⟩⟩

theorem leaveGroups (h : Keeps A d e) (hq : groupsRule d → inNoSweep c e) : Keeps A d (leaveGroups c e) where
  canonical := by rw [leaveGroups_eq]; exact h.canonical
  held := by rw [leaveGroups_eq]; exact h.held
  bytes := by rw [leaveGroups_eq]; exact h.bytes
  groupRules hd := by
    have he := h.groupRules hd
    refine groupsRule_iff.2 ⟨fun g k b hg hk => ?_, fun g => ?_⟩
    · rw [leaveGroups_group, leftBy_members, Bool.and_eq_true] at hg hk
      exact he.1 g k b hg.1 hk.1
    · rw [leaveGroups_group]; exact (he.ok g).leftBy (hq hd g)
  fronts := by rw [leaveGroups_eq]; exact h.fronts
  monitors := by rw [leaveGroups_eq]; exact h.monitors
  divider := by rw [leaveGroups_eq]; exact h.divider

theorem cmdResetChannel (h : Keeps A d e) (hA : holdsRing A c) : Keeps A d (cmdResetChannel c e) := by
  have hended : Keeps A d (if ((e.ctl c).state = .off && (runningGroup e c).isNone) = true then e
      else Machine.powerDown c (Machine.endWork c e)) := by
    split
    · exact h
    · exact (h.endWork hA).powerDown
  unfold Machine.cmdResetChannel
  dsimp only
  refine Keeps.modChan (Keeps.ofSame (hended.leaveGroups (c := c) fun hd => ?_)) ?kept
  case kept => exact ⟨fun _ => ⟨restSettings_inRange, trivial⟩, fun _ => ⟨monitorRule_zero, monitorRule_zero⟩⟩
  split
  · next hoff =>
    have hnone : runningGroup e c = none := by simp only [Bool.and_eq_true, Option.isNone_iff_eq_none] at hoff; exact hoff.2
    exact fun g hm => runningGroup_none (h.groupRules hd) hnone hm
  · intro g hm
    rw [powerDown_group] at hm ⊢
    exact endWork_inNoSweep (h.groupRules hd) c g hm

theorem takeCommand (h : Keeps A d e) {k : Command} (hA : endsWork k = true → holdsRing A c) : Keeps A d (takeCommand k c e) := by
  have hflushed : endsWork k = true → Keeps A d (Machine.flushGroup c e) := fun hk => h.solo (Solo.refl c e).flushGroup (hA hk)
  cases k with
  | enable => exact h.cmdEnable
  | disable => exact (hflushed rfl).cmdDisable (hA rfl)
  | startSweep => exact h.cmdStartSweep
  | startTrack => exact h.cmdStartTrack
  | single => exact h.cmdSingle
  | apply => exact h.cmdApply
  | stop => exact (hflushed rfl).cmdStop (hA rfl)
  | abort => exact (hflushed rfl).cmdAbort (hA rfl)
  | clearHalt => exact h.cmdClearHalt
  | clearCounters => exact h.cmdClearCounters
  | resetChannel => exact (hflushed rfl).cmdResetChannel (hA rfl)

/-! ### Registers -/

theorem modConfig (h : Keeps A d e) {f : ChanConfig → ChanConfig} : Keeps A d (modConfig c f e) :=
  h.modChan .ofSame

theorem restarted (h : Keeps A d e) : Keeps A d (Machine.atChecker c chkRestart e) :=
  h.atChecker (by rw [chkRestart_monitor]; exact id)

theorem storeUser (h : Keeps A d e) {r : UserReg} {v : BusWord} : Keeps A d (storeUser r v c e) := by
  have hstored := h.modChan (c := c) (f := fun k => match r with
      | .length => { k with gen := userRestart { k.gen with userLength := userLengthOf v.toNat } }
      | .word q high =>
        { k with gen := userRestart { k.gen with userWords := k.gen.userWords.set q (setHalf (k.gen.userWords.get q) high v) } })
    (by cases r <;> exact .ofSame)
  unfold Machine.storeUser
  dsimp only
  split
  · exact hstored.restarted
  · exact hstored

theorem storeChecker (h : Keeps A d e) {r : CheckerReg} {v : BusWord} : Keeps A d (storeChecker r v c e) := by
  cases r with
  | mode =>
    have hstored := h.modChan (c := c) (f := fun k => { k with chk := { k.chk with mode := checkerModeOf (v.toNat % 4) } })
      .ofSame
    unfold Machine.storeChecker
    dsimp only
    split
    · exact hstored
    · exact hstored.atChecker (by rw [chkModeWritten_monitor]; exact id)
  | fixedPattern => exact Keeps.restarted (h.modChan .ofSame)
  | fixedPolarity => exact Keeps.restarted (h.modChan .ofSame)

theorem storeGenMode (h : Keeps A d e) {v : BusWord} : Keeps A d (storeGenMode v c e) := by
  unfold Machine.storeGenMode; exact h.modChan .ofSame

theorem storeCfg (h : Keeps A d e) {r : CfgReg} {v : BusWord} : Keeps A d (storeCfg r v c e) := by
  cases r with
  | genMode => exact h.storeGenMode
  | invert => unfold Machine.storeCfg; exact h.modChan .ofSame
  | user r => exact h.storeUser
  | checker r => exact h.storeChecker
  | _ => simp only [Machine.storeCfg, modTrackRegs, modSweepRegs]; exact h.modConfig

theorem storeDwell (h : Keeps A d e) {k : Fin 8} {v : BusWord} : Keeps A d (storeDwell k v e) := h.ofSame

theorem storeTxSource (h : Keeps A d e) {v : BusWord} : Keeps A d (storeTxSource c v e) := by
  unfold Machine.storeTxSource
  exact Keeps.raiseIf h.ofSame

theorem storeCheckerSource (h : Keeps A d e) {v : BusWord} : Keeps A d (storeCheckerSource c v e) := by
  unfold Machine.storeCheckerSource
  split
  · exact h
  · dsimp only
    refine Keeps.atChecker (Keeps.raise h.ofSame) ?_
    rw [chkBreak_monitor]; exact id

/-- Members are stored where the rules allow it (R116). -/
theorem storeMembers (h : Keeps A d e) {g : Grp} {m : BitVec 8} (ha : membersAllowed e g m = true) :
    Keeps A d (storeMembers g m e) where
  held := h.held
  canonical := h.canonical
  bytes := h.bytes
  fronts := h.fronts
  monitors := h.monitors
  divider := h.divider
  groupRules hd := by
    have he := h.groupRules hd
    obtain ⟨hidle, hother⟩ : (e.group g).state = .idle ∧ ∀ k, k ≠ g → (e.group k).members &&& m = 0 := by
      simp only [membersAllowed, Bool.and_eq_true, decide_eq_true_eq, allGroups, List.all_cons, List.all_nil, Bool.or_eq_true,
        beq_iff_eq] at ha
      refine ⟨ha.1, fun k hk => ?_⟩
      have hk' : k = g ∨ (e.group k).members &&& m = 0#8 := by
        rcases grp_cases k with rfl | rfl | rfl | rfl
        exacts [ha.2.1, ha.2.2.1, ha.2.2.2.1, ha.2.2.2.2.1]
      exact hk'.resolve_left hk
    have hapart : ∀ k, k ≠ g → ∀ b, inMask (e.group k).members b = true → inMask m b = false := fun k hk b hb => by
      have := congrArg (fun x : BitVec 8 => x.getLsbD b.val) (hother k hk)
      simp only [BitVec.getLsbD_and] at this
      unfold inMask at hb ⊢
      rw [hb] at this
      simpa using this
    refine groupsRule_iff.2 ⟨fun a b x hxa hxb => ?_, fun k => ?_⟩
    · rw [Machine.storeMembers, modGroup_group] at hxa hxb
      split at hxa
      · next hag =>
        split at hxb
        · next hbg => rw [hag, hbg]
        · next hbg => exact absurd hxa (by simp [hapart b hbg x hxb])
      · next hag =>
        split at hxb
        · next hbg => exact absurd hxb (by simp [hapart a hag x hxa])
        · exact he.1 a b x hxa hxb
    · rw [Machine.storeMembers, modGroup_group]
      split
      · refine ⟨fun b hb => ?_, fun hs => absurd hidle hs, (he.ok g).idleIsQuiet⟩
        dsimp only at hb
        split at hb
        · split at hb
          · next hm => cases hb; exact hm
          · cases hb
        · cases hb
      · exact he.ok k

/-- A Lead is stored where the rules allow it (R117). -/
theorem storeLead (h : Keeps A d e) {g : Grp} {l : Option Chan} (hidle : groupsRule d → (e.group g).state = .idle)
    (ha : leadAllowed (e.group g).members l = true) : Keeps A d (storeLead g l e) := by
  refine h.modGroup fun hd hx => ⟨fun b hb => ?_, fun hs => absurd (hidle hd) hs, hx.idleIsQuiet⟩
  dsimp only at hb
  subst hb
  exact ha

theorem storeBarrierTimeout (h : Keeps A d e) {g : Grp} {v : BusWord} : Keeps A d (storeBarrierTimeout g v e) :=
  h.modGroup fun _ hx => hx.ofBarrier rfl rfl rfl rfl rfl id id

end Keeps

end Sys2Proof.Machine
end

section
/-! The Preload Controller and the host's accesses keep the rules of the part. -/

namespace Sys2Proof.Machine

-- One theorem after another: a thread for each would take the memory a check allows.
set_option Elab.async false

open Sys2Proof

/-- Every offset of the shared RAM. -/
def everywhere (_ : Nat) : Prop := True

theorem holdsRing_everywhere (c : Chan) : holdsRing everywhere c := fun _ _ => trivial

/-- A GROUP block that is written meets the rules of its writes (R173). -/
theorem blockFault_group {d : Device} {ws : List BusWord} (h : blockFault d ws = .inr .group) :
    groupBlockFits d (targetGroup ((wordAt ws 0).toNat / 256)) (wordAt ws 2) = true := by
  unfold blockFault at h
  dsimp only at h
  split at h
  · cases h
  · split at h
    · cases h
    · split at h
      · cases h
      · split at h
        · cases h
        · split at h
          · cases h
          · split at h
            · cases h
            · next hfits =>
              injection h with h
              by_contra hno
              exact hfits ⟨h, by simpa using hno⟩

namespace Keeps

variable {A : Nat → Prop} {d e : Device} {c : Chan}

theorem happening (h : Keeps A d e) {f : Device → Device} (hf : Keeps A d (f e)) : Keeps A d (happening f e) := by
  unfold Machine.happening
  split
  · exact h
  · exact hf

theorem hostAccess (h : Keeps A d e) {a : Access} {f : Device → Device} (hf : Keeps A d (f e)) : Keeps A d (hostAccess a f e) := by
  unfold Machine.hostAccess
  split
  · exact h.ofSame
  · exact hf

theorem unlessPreload (h : Keeps A d e) {o : Nat} {f : Device → Device} (hf : Keeps A d (f e)) :
    Keeps A d (unlessPreload o f e) := by
  unfold Machine.unlessPreload Machine.dropWrite
  split
  · exact Keeps.badWrite h.ofSame
  · exact hf

/-- A store of words at offsets of `A`. -/
theorem writeWords (h : Keeps A d e) {a : Nat} {ws : List BusWord} (ha : ∀ b, ¬ A b → b < a ∨ a + 2 * ws.length ≤ b) :
    Keeps A d (writeWords a ws e) :=
  h.trans
    { canonical := wf_writeWords a ws e
      held := by rw [writeWords_form]
      bytes := fun b hb => ramByte_writeWords_of_outside a ws e b (ha b hb)
      groupRules := by rw [writeWords_form]; exact id
      fronts := by rw [writeWords_form]; exact fun _ => id
      monitors := by rw [writeWords_form]; exact fun _ => id
      divider := by rw [writeWords_form]; exact id }

/-! ### The Preload Controller -/

theorem leavePreload (h : Keeps A d e) {st : PreloadState} : Keeps A d (leavePreload st e) := h.modPreload
theorem beginPreload (h : Keeps A d e) : Keeps A d (beginPreload e) := h.modPreload
theorem failPreload (h : Keeps A d e) {w : PreloadCause} : Keeps A d (failPreload w e) := (h.leavePreload.modPreload).devRaise
theorem readHead (h : Keeps A d e) : Keeps A d (readHead e) := h.modPreload

theorem startDone (h : Keeps A d e) : Keeps A d (startDone e) := by
  unfold Machine.startDone
  split
  · split
    · exact h.modPreload.devRaise
    · exact h
  · exact h

theorem endPreload (h : Keeps A d e) : Keeps A d (endPreload e) := by
  unfold Machine.endPreload; exact (h.leavePreload.modPreload).startDone

theorem judgeHeader (h : Keeps A d e) {ws : List BusWord} : Keeps A d (judgeHeader ws e) := by
  unfold Machine.judgeHeader
  split
  · exact h.modPreload.readHead
  · exact h.modPreload.failPreload

theorem nextBlock (h : Keeps A d e) : Keeps A d (nextBlock e) := by
  unfold Machine.nextBlock
  dsimp only
  split
  · exact h.endPreload
  · exact h.modPreload

theorem beginBlock (h : Keeps A d e) : Keeps A d (beginBlock e) := by
  unfold Machine.beginBlock
  split
  · exact h.modPreload.readHead
  all_goals exact h

theorem blockApplied (h : Keeps A d e) : Keeps A d (blockApplied e) := h.modPreload.nextBlock
theorem blockSkipped (h : Keeps A d e) {r : SkipReason} : Keeps A d (blockSkipped r e) := h.modPreload.nextBlock

theorem writeDwellBlock (h : Keeps A d e) {ws : List BusWord} : Keeps A d (writeDwellBlock ws e) :=
  h.forChans fun _ _ h' => h'.storeDwell

theorem writeChannelBlock (h : Keeps A d e) {ws : List BusWord} : Keeps A d (writeChannelBlock c ws e) :=
  h.foldl _ fun _ _ h' => h'.storeCfg

theorem writeRouteBlock (h : Keeps A d e) {ws : List BusWord} : Keeps A d (writeRouteBlock ws e) :=
  Keeps.forChans (h.forChans fun _ _ h' => h'.storeTxSource) fun _ _ h' => h'.storeCheckerSource

theorem writeGroupBlock (h : Keeps A d e) {g : Grp} {ws : List BusWord} (hfits : groupBlockFits e g (wordAt ws 2) = true) :
    Keeps A d (writeGroupBlock g ws e) := by
  obtain ⟨hmembers, hlead⟩ := Bool.and_eq_true_iff.1 hfits
  have hidle : (e.group g).state = .idle := by
    unfold membersAllowed at hmembers
    exact of_decide_eq_true (Bool.and_eq_true_iff.1 hmembers).1
  refine (h.storeMembers hmembers).storeLead (fun _ => ?_) ?_
  · rw [Machine.storeMembers, modGroup_group_self]; exact hidle
  · rw [Machine.storeMembers, modGroup_group_self]; exact hlead

theorem writeBlock (h : Keeps A d e) {t : BlockType} {ws : List BusWord}
    (hfits : t = .group → groupBlockFits e (targetGroup ((wordAt ws 0).toNat / 256)) (wordAt ws 2) = true) :
    Keeps A d (writeBlock t ws e) := by
  cases t with
  | plan => unfold Machine.writeBlock; exact h.modPreload
  | dwell => exact h.writeDwellBlock.blockApplied
  | channel => exact h.writeChannelBlock.blockApplied
  | route => exact h.writeRouteBlock.blockApplied
  | group => exact (h.writeGroupBlock (hfits rfl)).blockApplied
  | ring => unfold Machine.writeBlock; exact h.modPreload

theorem judgeBlock (h : Keeps A d e) : Keeps A d (judgeBlock e) := by
  unfold Machine.judgeBlock
  dsimp only
  split
  · exact h.blockSkipped
  · next t ht => exact h.writeBlock fun hg => blockFault_group (hg ▸ ht)

theorem readBody (h : Keeps A d e) : Keeps A d (readBody e) := by
  unfold Machine.readBody
  dsimp only
  split
  · exact h.judgeBlock
  · exact h.modPreload

theorem judgeHead (h : Keeps A d e) : Keeps A d (judgeHead e) := by
  unfold Machine.judgeHead
  dsimp only
  split
  · exact h.failPreload
  · exact h.readBody

theorem transferDone (h : Keeps A d e) {t : Transfer} {data : List Byte} : Keeps A d (transferDone t data e) := by
  unfold Machine.transferDone
  split
  · exact h.judgeHeader
  · exact h.modPreload.judgeHead
  · exact h.modPreload.readBody

theorem takeTransfer (h : Keeps A d e) {data : List Byte} : Keeps A d (takeTransfer data e) := by
  unfold Machine.takeTransfer
  dsimp only
  split
  · split
    · exact h.beginBlock.transferDone
    · exact h
  all_goals exact h

theorem takeNack (h : Keeps A d e) : Keeps A d (takeNack e) := by
  unfold Machine.takeNack
  dsimp only
  split
  · split
    · exact h.beginBlock.modPreload
    · exact h.beginBlock.failPreload
  all_goals exact h

theorem takeRetry (h : Keeps A d e) : Keeps A d (takeRetry e) := by
  unfold Machine.takeRetry
  split
  · exact h.modPreload
  all_goals exact h

theorem takeTimeout (h : Keeps A d e) : Keeps A d (takeTimeout e) := by
  unfold Machine.takeTimeout
  dsimp only
  split
  · exact h.beginBlock.failPreload
  all_goals exact h

theorem takeHandedEnable (h : Keeps A d e) : Keeps A d (takeHandedEnable c e) := by
  unfold Machine.takeHandedEnable
  split
  · split
    · exact (Keeps.modPreload (h.takeCommand (k := .enable) (by intro hk; cases hk))).startDone
    · exact h
  · exact h

theorem takeHandedStart (h : Keeps A d e) : Keeps A d (takeHandedStart c e) := by
  unfold Machine.takeHandedStart
  split
  · split
    · exact (Keeps.modPreload (h.takeCommand (k := .startSweep) (by intro hk; cases hk))).startDone
    · exact h
  · exact h

theorem writeTarget (h : Keeps everywhere d e) {t : RamTarget} : Keeps everywhere d (writeTarget t e) := by
  cases t with
  | entry i ws => exact h.writeWords fun b hb => absurd trivial hb
  | control b p w => exact h.writeWords (ws := [w]) fun b hb => absurd trivial hb

theorem takeRamWrite (h : Keeps everywhere d e) : Keeps everywhere d (takeRamWrite e) := by
  unfold Machine.takeRamWrite
  split
  · split
    · exact h
    · exact h.served.writeTarget.blockApplied
    · exact h.served.writeTarget.modPreload
    all_goals exact h
  · exact h

/-! ### The channel page -/

theorem pageWrite (h : Keeps A d e) {o : Nat} {f : Chan → Device → Device} (hf : ∀ c e', Keeps A d e' → Keeps A d (f c e')) :
    Keeps A d (pageWrite o f e) := by
  unfold Machine.pageWrite
  split
  · exact h.badWrite
  · exact h.forMask hf

theorem pageConfigWrite (h : Keeps A d e) {o : Nat} {f : Chan → Device → Device} (hf : ∀ c e', Keeps A d e' → Keeps A d (f c e')) :
    Keeps A d (pageConfigWrite o f e) := by
  unfold Machine.pageConfigWrite
  split
  · exact h.badWrite
  · exact h.unlessPreload (h.forMask hf)

theorem commandAt (h : Keeps A d e) {v : BusWord} (hA : ∀ k, commandOf (codeOf v) = some k → endsWork k = true → holdsRing A c) :
    Keeps A d (commandAt v c e) := by
  unfold Machine.commandAt
  split
  · next k hk => exact h.takeCommand (hA k hk)
  · exact h.refuse

theorem argumentAt (h : Keeps A d e) {v : BusWord} : Keeps A d (argumentAt v c e) := h.modCtl
theorem overrunAt (h : Keeps A d e) : Keeps A d (overrunAt c e) := h.modCtl

theorem eventClearAt (h : Keeps A d e) {v : BusWord} : Keeps A d (eventClearAt v c e) := by
  unfold Machine.eventClearAt
  exact Keeps.modChan h.ofSame .ofSame

theorem enableAt (h : Keeps A d e) {v : BusWord} : Keeps A d (enableAt v c e) := by
  unfold Machine.enableAt
  exact h.modChan .ofSame

theorem pageWriteAt (h : Keeps everywhere d e) {o : Nat} {v : BusWord} : Keeps everywhere d (pageWriteAt o v e) := by
  unfold Machine.pageWriteAt
  split
  · exact h.pageConfigWrite fun _ _ h' => h'.storeCfg
  · split
    · exact h.pageWrite fun c _ h' => h'.commandAt fun _ _ _ => holdsRing_everywhere c
    · exact h.pageWrite fun _ _ h' => h'.argumentAt
    · exact h.pageConfigWrite fun _ _ h' => h'.overrunAt
    · exact h.pageWrite fun _ _ h' => h'.eventClearAt
    · exact h.pageWrite fun _ _ h' => h'.enableAt
    · exact h.pageWrite fun _ _ h' => h'

/-! ### Device commands and registers -/

theorem deviceStatus (h : Keeps A d e) {code : BitVec 8} {st : DeviceStatus} : Keeps A d (deviceStatus code st e) := h.ofSame

theorem refuseDevice (h : Keeps A d e) {code : BitVec 8} {st : DeviceStatus} : Keeps A d (refuseDevice code st e) :=
  h.deviceStatus.badWrite

theorem cmdSnapshot (h : Keeps A d e) : Keeps A d (cmdSnapshot e) :=
  h.deviceStatus.forMask fun _ _ h' => h'.modChan ⟨id, fun hk => ⟨hk.1, hk.1⟩⟩

theorem cmdPreload (h : Keeps A d e) : Keeps A d (cmdPreload e) := by
  unfold Machine.cmdPreload
  split
  · exact h.deviceStatus.beginPreload
  · exact h.refuseDevice

theorem cmdAbortPreload (h : Keeps A d e) : Keeps A d (cmdAbortPreload e) := by
  unfold Machine.cmdAbortPreload
  split
  · exact h.deviceStatus.leavePreload
  · exact h.refuseDevice

theorem deviceCommandWrite (h : Keeps A d e) {v : BusWord} : Keeps A d (deviceCommandWrite v e) := by
  unfold Machine.deviceCommandWrite
  split
  · exact h.cmdSnapshot
  · exact h.cmdPreload
  · exact h.cmdAbortPreload
  · exact h.refuseDevice

/-- RefDivider takes values within its range alone (R159). -/
theorem refDividerWrite (h : Keeps A d e) {v : BusWord} : Keeps A d (refDividerWrite v e) := by
  refine h.unlessPreload ?_
  split
  · exact h.badWrite
  · next hrange =>
    exact ⟨⟨h.canonical, h.bytes, h.groupRules, h.fronts, h.monitors, fun _ => by simp only [refDividerRule]; omega⟩, h.held⟩

theorem membersWrite (h : Keeps A d e) {g : Grp} {v : BusWord} : Keeps A d (membersWrite g v e) := by
  refine h.unlessPreload ?_
  split
  · next ha => exact h.storeMembers ha
  · exact h.badWrite

theorem leadWrite (h : Keeps A d e) {g : Grp} {v : BusWord} : Keeps A d (leadWrite g v e) := by
  refine h.unlessPreload ?_
  split
  · next ha => exact h.storeLead (fun _ => ha.1) ha.2
  · exact h.badWrite

theorem txSourceWrite (h : Keeps A d e) {v : BusWord} : Keeps A d (txSourceWrite c v e) := h.unlessPreload h.storeTxSource

theorem checkerSourceWrite (h : Keeps A d e) {v : BusWord} : Keeps A d (checkerSourceWrite c v e) :=
  h.unlessPreload h.storeCheckerSource

theorem deviceEventWrite (h : Keeps A d e) {v : BusWord} : Keeps A d (deviceEventWrite v e) := h.ofSame
theorem deviceEnableWrite (h : Keeps A d e) {v : BusWord} : Keeps A d (deviceEnableWrite v e) := h.ofSame

theorem groupWriteAt (h : Keeps A d e) {g : Grp} {o : Nat} {v : BusWord} : Keeps A d (groupWriteAt g o v e) := by
  unfold Machine.groupWriteAt
  split
  · exact h.membersWrite
  · exact h.leadWrite
  · exact h.unlessPreload h.storeBarrierTimeout
  · exact h

theorem deviceWriteAt (h : Keeps A d e) {o : Nat} {v : BusWord} : Keeps A d (deviceWriteAt o v e) := by
  unfold Machine.deviceWriteAt
  split
  · exact h.ofSame
  · exact h.deviceCommandWrite
  · exact h.ofSame
  · exact h.refDividerWrite
  · exact h.deviceEventWrite
  · exact h.deviceEnableWrite
  · split
    · exact h.unlessPreload h.storeDwell
    · split
      · exact h.txSourceWrite
      · split
        · exact h.checkerSourceWrite
        · exact h

/-! ### The shared RAM and the window -/

theorem planWrite (h : Keeps everywhere d e) {o : Nat} {v : BusWord} : Keeps everywhere d (planWrite o v e) :=
  h.unlessPreload (h.writeWords (ws := [v]) fun _ hb => absurd trivial hb)

/-- A host write of ring `c` is own work of the channel: the word, the handback, and the ending that waited for it. -/
theorem ringControlWrite (h : Keeps A d e) (hA : holdsRing A c) {p : RingPos} {v : BusWord} :
    Keeps A d (ringControlWrite c p v e) := by
  have hp := p.isLt
  refine h.unlessPreload (h.solo ?_ hA)
  have hword : Solo c e (Machine.writeWord (ringAddr c p) v e) :=
    (Solo.refl c e).writeWord fun b hb => by unfold inRing at hb; unfold ringAddr; omega
  dsimp only
  split
  · exact hword.modCtl.goOnEnding
  · exact hword.goOnEnding

theorem ringBodyWrite (h : Keeps A d e) (hA : holdsRing A c) {o : Nat} {v : BusWord}
    (ho : 0x0800 + 0x200 * c.val ≤ o ∧ o + 2 ≤ 0x0800 + 0x200 * c.val + 0x200) : Keeps A d (ringBodyWrite c o v e) :=
  h.unlessPreload (h.solo (((Solo.refl c e).writeWord fun b hb => by unfold inRing at hb; omega).goOnEnding) hA)

/-- A write of a ring's offset, one byte of it beyond the ring where the offset is odd; no row writes an odd one. -/
theorem ringWriteAt (h : Keeps everywhere d e) {o : Nat} {v : BusWord} : Keeps everywhere d (ringWriteAt o v e) := by
  unfold Machine.ringWriteAt
  dsimp only
  split
  · exact h.ringControlWrite (holdsRing_everywhere _)
  · exact h.unlessPreload
      ((h.writeWords (ws := [v]) fun _ hb => absurd trivial hb).solo (Solo.refl _ _).goOnEnding (holdsRing_everywhere _))

theorem writeAt (h : Keeps everywhere d e) {o : Nat} {v : BusWord} : Keeps everywhere d (writeAt o v e) := by
  unfold Machine.writeAt
  split
  · exact h.deviceWriteAt
  · split
    · exact h.groupWriteAt
    · split
      · exact h
      · split
        · exact h.pageWriteAt
        · split
          · exact h
          · split
            · exact h.planWrite
            · split
              · exact h.ringWriteAt
              · exact h

theorem readAt (h : Keeps A d e) {o : Nat} : Keeps A d (readAt o e) := by
  unfold Machine.readAt
  dsimp only
  split
  · exact h.ofSame
  · exact h.ofSame

theorem serveAccess (h : Keeps everywhere d e) {a : Access} : Keeps everywhere d (serveAccess a e) := by
  cases a with
  | write o v => exact h.writeAt
  | read o => exact h.readAt

end Keeps

end Sys2Proof.Machine
end

section
/-! The happenings of channels, groups and clocks keep the rules of the part, and so does every row. -/

namespace Sys2Proof.Machine

-- One theorem after another: a thread for each would take the memory a check allows.
set_option Elab.async false

open Sys2Proof

/-- What a channel takes from its inbox is what it was looking for. -/
theorem takeHanded_wanted {t : Task} {want : Handed → Bool} {pass : Bool} {l l' : List Handed} {h : Handed}
    (ht : takeHanded t want pass l = some (h, l')) : want h = true := by
  induction l with
  | nil => cases ht
  | cons x l ih =>
    unfold takeHanded at ht
    split at ht
    · next hx => cases ht; exact hx
    · split at ht
      · cases ht
      · exact ih ht

/-- A property that every step of a run through a mask's channels keeps holds after it. -/
theorem forMask_induct (P : Device → Prop) {m : BitVec 8} {f : Chan → Device → Device} {d : Device} (h : P d)
    (hf : ∀ c e, inMask m c = true → P e → P (f c e)) : P (forMask m f d) := by
  have hl : ∀ (l : List Chan) (e : Device), P e → P (l.foldl (fun d c => if inMask m c then f c d else d) e) := fun l => by
    induction l with
    | nil => exact fun _ he => he
    | cons c l ih =>
      intro e he
      refine ih _ ?_
      dsimp only
      split
      · next hm => exact hf c e hm he
      · exact he
  exact hl allChans d h

theorem inMask_missing (x : Group) (c : Chan) : inMask (missing x) c = (inMask x.members c && !inMask x.atBarrier c) := by
  have hc : c.val < 8 := c.isLt
  simp [missing, inMask, hc]

theorem eject_lead (g : Grp) (under : Option PointOutcome) (st : ChanState) (cause : HaltCause) (c : Chan) (d : Device) :
    ((eject g under st cause c d).group g).lead = (d.group g).lead := by
  have hroles := eject_roles g g under st cause c d
  rw [if_pos rfl] at hroles
  exact congrArg Prod.snd hroles

namespace Keeps

variable {A : Nat → Prop} {d e : Device} {c : Chan} {g : Grp}

/-! ### Happenings at a channel -/

theorem takeSignal (h : Keeps A d e) (hA : holdsRing A c) {waits : Bool} {x : Handed} : Keeps A d (takeSignal waits c x e) := by
  unfold Machine.takeSignal
  dsimp only
  split
  · split
    · exact h.solo ((Solo.refl c e).endPoint _) hA
    · exact h
  · split
    · exact h.solo ((Solo.refl c e).endPoint _) hA
    · exact h
  · split
    · exact h.solo ((Solo.refl c e).enterDwell _) hA
    · exact h
  · split
    · split
      · split
        · exact h.leadAborts hA
        · next hl => exact h.eject hA fun _ => leads_false hl
      · exact h.solo ((Solo.refl c e).haltChannel _ _ _ _) hA
    · exact h

theorem fromInbox (h : Keeps A d e) (hA : holdsRing A c) {waits : Bool} {want : Handed → Bool} {pass : Bool} :
    Keeps A d (fromInbox waits want pass c e) := by
  unfold Machine.fromInbox
  split
  · exact Keeps.takeSignal h.modCtl hA
  · exact h

/-- Lock gained leaves the RAM alone. -/
theorem lockGained (h : Keeps A d e) {waits pass : Bool} : Keeps A d (Machine.fromInbox waits (fun x => x = .lockGained) pass c e) := by
  unfold Machine.fromInbox
  split
  · next x l hx =>
    have hgained : x = .lockGained := of_decide_eq_true (takeHanded_wanted hx)
    subst hgained
    unfold Machine.takeSignal
    dsimp only
    split
    · exact Keeps.modChan h.modCtl .ofSame
    · exact h.modCtl
  · exact h

theorem takeRefLoss (h : Keeps A d e) (hA : holdsRing A c) {waits : Bool} : Keeps A d (takeRefLoss waits c e) := by
  unfold Machine.takeRefLoss
  dsimp only
  split
  · exact h
  · exact h
  · exact h
  · exact h.solo ((Solo.refl c e).haltChannel _ _ _ _) hA
  · exact h.solo ((Solo.refl c e).haltChannel _ _ _ _) hA
  · split
    · refine Keeps.solo (h.modGroup fun _ hx => hx.leaveBarrier c) ((Solo.refl c _).memberHalts _ _ _ _ _ _) hA
    · refine h.solo (Solo.haltChannel ?_ _ _ _ _) hA
      split
      · exact (Solo.refl c e).showAbandoned
      · exact .refl c e

theorem channelGrant (h : Keeps A d e) {f : Device → Device} (hf : ∀ e', Keeps A d e' → Keeps A d (f e')) :
    Keeps A d (channelGrant c f e) := by
  unfold Machine.channelGrant
  split
  · exact hf _ h.served
  · exact h

/-! ### Happenings at a group -/

theorem paceGrant (h : Keeps A d e) {f : Device → Device}
    (hf : ∀ e', Keeps A d e' → e'.groups = e.groups → Keeps A d (f e')) : Keeps A d (paceGrant g f e) := by
  unfold Machine.paceGrant
  split
  · exact (hf _ h.servedGroup rfl).paceRefresh
  · exact h

/-- A group that has work is in RUNNING or STOPPING. -/
theorem hasTask (h : Keeps A d e) {t : GroupTask} (ht : (e.group g).task = t) (hne : t ≠ .idle) :
    groupsRule d → (e.group g).state ≠ .idle := fun hd => ((h.groupRules hd).ok g).running (ht ▸ hne)

theorem showProgress (h : Keeps A d e) {p : CheckProgress} : Keeps A d (showProgress c p e) :=
  h.soloDry ((Solo.refl c e).showProgress p) (showProgress_ram c e p)

theorem groupCheckGrant (h : Keeps A d e) : Keeps A d (groupCheckGrant g e) := by
  unfold Machine.groupCheckGrant
  split
  · next w ht _ =>
    refine Keeps.groupTask (h.atLead fun _ => h.showProgress) fun hd => ?_
    rw [Device.group, atLead_groups fun c e => by exact ((Solo.refl c e).showProgress _).groups]
    exact h.hasTask ht (by simp) hd
  · exact h

theorem beginGroupSweep (h : Keeps A d e) (hrun : groupsRule d → (e.group g).state ≠ .idle) : Keeps A d (beginGroupSweep g e) := by
  have hstatus : ∀ st k, (endStatus st k).message = k.message := fun st k => by unfold endStatus; split <;> rfl
  have hlead := h.atLead (g := g) (f := fun c => Machine.modCtl c (endStatus .accepted)) fun c => h.modCtl fun k => .inl (hstatus _ k)
  have hstate : ∀ k, ((Machine.atLead g (fun c => Machine.modCtl c (endStatus .accepted)) e).group k) = e.group k := fun k => by
    rw [Device.group, atLead_groups (by exact fun _ _ => rfl)]; rfl
  have hbegun := hlead.groupTask (g := g) (f := fun x => { x with begun := true }) fun hd => by rw [hstate]; exact hrun hd
  have hmembers := hbegun.forMask (m := (e.group g).members) (f := fun c d =>
      if inGroupCheck d g c then Machine.modCtl c (fun k => { k with seq := k.seq + 1, stopping := false, task := .memberWait }) d else d)
    fun c e' h' => by
      split
      · exact h'.modCtl
      · exact h'
  unfold Machine.beginGroupSweep
  dsimp only
  rw [modGroup_group_self, hstate]
  split
  · refine hmembers.groupWalkFrom fun hd => ?_
    rw [Device.group, forMask_groups (fun c e => by split <;> rfl), ← Device.group, modGroup_group_self, hstate]
    exact hrun hd
  · exact hmembers

theorem failGroupCheck (h : Keeps A d e) : Keeps A d (failGroupCheck g e) := by
  have hstatus : ∀ st k, (endStatus st k).message = k.message := fun st k => by unfold endStatus; split <;> rfl
  exact Keeps.quietClose (Keeps.restMembers (h.atLead fun c => Keeps.raise (h.modCtl fun k => .inl (hstatus _ k))))

theorem takeGroupCheckEnd (h : Keeps A d e) : Keeps A d (takeGroupCheckEnd g e) := by
  unfold Machine.takeGroupCheckEnd
  split
  · next r i ht =>
    have hshown := h.atLead (g := g) (f := fun c => showResult c r i) fun c => h.modCtl
    split
    · exact h
    · dsimp only
      split
      · refine hshown.beginGroupSweep fun hd => ?_
        rw [Device.group, atLead_groups (by exact fun _ _ => rfl)]
        exact h.hasTask ht (by simp) hd
      · exact hshown.failGroupCheck
  · exact h

theorem groupWalkGrant (h : Keeps A d e) : Keeps A d (groupWalkGrant g e) := by
  unfold Machine.groupWalkGrant
  split
  · next ht =>
    have hrun := h.hasTask ht (by simp)
    split
    · exact h.groupWalkFrom hrun
    · next p hp => exact Keeps.handAll (h.groupTask hrun) (m := .copy p) (walkRead_inRange hp)
    · exact Keeps.groupHalt (h.atLead fun c => h.modCtl)
  · exact h

theorem groupSelectedGrant (h : Keeps A d e) : Keeps A d (groupSelectedGrant g e) := by
  unfold Machine.groupSelectedGrant
  split
  · split
    · next p hp => exact Keeps.closeGroup (h.handAll (m := .ending (some p) _) (directedFetch_inRange hp))
    · exact Keeps.groupHalt (h.atLead fun c => h.modCtl)
  · exact h

theorem takeReport (h : Keeps A d e) : Keeps A d (takeReport c e) := by
  unfold Machine.takeReport
  split
  · next r k _ _ =>
    have hlet := h.modCtl (c := c) (f := fun x => { x with report := none })
    dsimp only
    split
    · next htask =>
      have hrun := h.hasTask htask.1 (by simp)
      have hjoined := hlet.groupTask (g := k) (f := addReport c r) fun hd => hrun hd
      split
      · exact hjoined.release fun hd => by rw [modGroup_group_self]; exact hrun hd
      · exact hjoined
    · exact hlet
  · exact h.modCtl
  · exact h

/-- The members a barrier waits for are ejected, where the lead is none of them. -/
theorem ejectMissing (h : Keeps A d e) (hA : ∀ b, holdsRing A b) {m : BitVec 8} {under : Option PointOutcome} {st : ChanState}
    {cause : HaltCause} (hlead : ∀ b, (e.group g).lead = some b → inMask m b = false) :
    Keeps A d (Machine.forMask m (Machine.eject g under st cause) e) := by
  refine (forMask_induct (fun e' => Keeps A d e' ∧ (e'.group g).lead = (e.group g).lead) ⟨h, rfl⟩ fun b e' hb he' => ?_).1
  refine ⟨he'.1.eject (hA b) fun _ hl => ?_, (eject_lead ..).trans he'.2⟩
  rw [hlead b (he'.2 ▸ hl)] at hb
  exact absurd hb (by simp)

theorem takeBarrierTimeout (h : Keeps A d e) (hA : ∀ b, holdsRing A b) : Keeps A d (takeBarrierTimeout g e) := by
  have hcancelled := h.modGroup (g := g) (f := fun x => { x with barrier := none })
    fun _ hx => hx.ofBarrier rfl rfl rfl rfl rfl id fun _ => rfl
  have hgroup : ((Machine.modGroup g (fun x => { x with barrier := none }) e).group g).lead = (e.group g).lead := by
    rw [modGroup_group_self]
  unfold Machine.takeBarrierTimeout
  dsimp only
  split
  · cases hl : (e.group g).lead with
    | none => exact hcancelled.ejectMissing hA fun b hb => by rw [hgroup, hl] at hb; cases hb
    | some b =>
      dsimp only
      split
      · exact hcancelled.groupAbort
      · next hm =>
        exact hcancelled.ejectMissing hA fun b' hb => by
          rw [hgroup, hl] at hb; cases hb; simpa using hm
  · exact h

theorem takeHaltReport (h : Keeps A d e) : Keeps A d (takeHaltReport c e) := by
  unfold Machine.takeHaltReport
  split
  · dsimp only
    split
    · exact Keeps.enterHalting h.modCtl
    · exact h.modCtl
  · exact h

theorem groupLoss (h : Keeps A d e) : Keeps A d (if e.groupRefLoss then Machine.forGroups Machine.enterHalting { e with groupRefLoss := false } else e) := by
  split
  · exact Keeps.forGroups h.ofSame fun _ _ h' => h'.enterHalting
  · exact h

/-! ### Lanes and time -/

theorem setActivity (h : Keeps A d e) {p : Bool} : Keeps A d (setActivity c p e) := by
  unfold Machine.setActivity
  dsimp only
  split
  · exact Keeps.reportChanged h.ofSame
  · exact h.ofSame

/-- A change of every group's record. -/
theorem mapGroups (h : Keeps A d e) {f : Group → Group} (hm : ∀ x, (f x).members = x.members) (hf : ∀ x, GroupOk x → GroupOk (f x)) :
    Keeps A d { e with groups := Four.build fun k => f (e.group k) } where
  canonical := h.canonical
  held := h.held
  bytes := h.bytes
  fronts := h.fronts
  monitors := h.monitors
  divider := h.divider
  groupRules hd := by
    have he := groupsRule_iff.1 (h.groupRules hd)
    have hget : ∀ k, (Four.build fun k => f (e.groups.get k)).get k = f (e.groups.get k) := fun k => Four.get_build _ k
    refine groupsRule_iff.2 ⟨fun a b x ha hb => ?_, fun k => ?_⟩
    · simp only [Device.group, hget, hm] at ha hb
      exact he.1 a b x ha hb
    · simp only [Device.group, hget]; exact hf _ (he.2 k)

theorem advance (h : Keeps A d e) : Keeps A d (advance e) := by
  have hticked := Keeps.mapChans (h.mapGroups (f := fun x => { x with barrier := tickBarrier x.barrier }) (fun _ => rfl)
      fun x hx => hx.ofBarrier rfl rfl rfl rfl rfl id fun hb => by simp only [hb, tickBarrier])
    (f := fun _ k => { k with ctl := { k.ctl with timer := tickTimer k.ctl.timer } }) fun _ => .ofSame
  refine hticked.ofSame (ht := ?_)
  change (countTick e.time).refDivider = e.time.refDivider
  unfold countTick; split <;> rfl

theorem sendWords (h : Keeps A d e) : Keeps A d (sendWords e) := by
  have hsent := h.mapChans (f := fun _ k => { k with gen := genAdvance (k.ctl.state = .off) k.gen }) fun _ => .ofSame
  exact hsent.ofSame

theorem wordTime (h : Keeps A d e) : Keeps A d (wordTime e) := by
  have hsent : Keeps A d { Machine.sendWords e with time := countEdge e.time } := by
    refine h.sendWords.ofSame (ht := ?_)
    change (countEdge e.time).refDivider = e.time.refDivider
    unfold countEdge; split <;> rfl
  unfold Machine.wordTime
  split
  · dsimp only
    split
    · exact hsent.advance
    · exact hsent
  · exact h

theorem wordTimes (h : Keeps A d e) (n : Nat) : Keeps A d (wordTimes n e) := by
  induction n generalizing e with
  | zero => exact h
  | succ n ih => exact ih h.wordTime

theorem tick (h : Keeps A d e) : Keeps A d (tick e) := by
  unfold Machine.tick
  split
  · exact h.wordTimes _
  · exact h

theorem receiveWord (h : Keeps A d e) {w : LaneWord} : Keeps A d (receiveWord c w e) := by
  unfold Machine.receiveWord
  split
  · refine Keeps.forChans (e := loopWord c w e) h.ofSame fun b e' h' => ?_
    split
    · exact h'.atChecker (chkWord_monitorRule _ _ _)
    · exact h'
  · exact h

theorem refLost (h : Keeps A d e) : Keeps A d (refLost e) := by
  unfold Machine.refLost
  split
  · have hhanded := h.mapChans (f := fun _ k => { k with ctl := { k.ctl with refLoss := true } }) fun _ => .ofSame
    exact Keeps.devRaise hhanded.ofSame
  · exact h

theorem refOk (h : Keeps A d e) : Keeps A d (refOk e) := by
  unfold Machine.refOk
  split
  · exact h
  · have hhanded := h.mapChans (f := fun _ k => { k with chk := { k.chk with refReturn := k.chk.refReturn || k.chk.state ≠ .off } })
      fun _ => .ofSame
    exact Keeps.devRaise (Keeps.wordTime hhanded.ofSame)

theorem takeRefReturn (h : Keeps A d e) : Keeps A d (takeRefReturn c e) := by
  unfold Machine.takeRefReturn
  split
  · exact (h.modChan .ofSame).atChecker (by rw [chkBreak_monitor]; exact id)
  · exact h

/-! ### Resets and the idle part -/

theorem ofReset {p r : Bool} {ma : BitVec 2} {a : Eight Bool} {free : Nat} :
    RulesKept A d (Device.afterReset p ma r a d.ram d.epoch free) where
  canonical := id
  bytes _ _ := rfl
  fronts b _ := by simp only [Device.chan, Device.afterReset, Eight.get_build]; exact ⟨restSettings_inRange, trivial⟩
  monitors b _ := by
    simp only [Device.chan, Device.afterReset, Eight.get_build]; exact ⟨monitorRule_zero, monitorRule_zero⟩
  divider _ := by simp [refDividerRule, Device.afterReset, Timebase.default]
  groupRules _ := by
    refine groupsRule_iff.2 ⟨fun a b x ha _ => ?_, fun k => ?_⟩
    · simp [Device.group, Device.afterReset, Group.default, inMask] at ha
    · simp only [Device.group, Device.afterReset, Four.get_build]
      exact ⟨(by intro b hb; cases hb), (fun hs => absurd rfl hs), fun _ => ⟨rfl, rfl, rfl, rfl⟩⟩

theorem resetAssert (d : Device) : RulesKept A d (resetAssert d) :=
  (ofReset (p := false) (r := false) (ma := 0) (a := d.lanes.activity) (free := d.free)).trans ⟨id, fun _ _ => rfl, id, fun _ => id, fun _ => id, id⟩

theorem powerOn (d : Device) : RulesKept everywhere d (powerOn d) where
  canonical _ := Memory.wf_nil
  bytes _ ha := absurd trivial ha
  groupRules := (resetAssert (A := everywhere) d).groupRules
  fronts := (resetAssert (A := everywhere) d).fronts
  monitors := (resetAssert (A := everywhere) d).monitors
  divider := (resetAssert (A := everywhere) d).divider

theorem endOfReset {p r : Bool} {ma : BitVec 2} : RulesKept everywhere d (endOfReset p ma r d) := by
  unfold Machine.endOfReset
  split
  · refine (ofReset (p := p) (r := r) (ma := ma) (a := d.lanes.activity) (free := d.free)).trans (Keeps.foldl ?_ _ fun _ _ h' => h'.serveAccess).toRulesKept
    split
    · exact (Keeps.refl _ _).beginPreload
    · exact .refl _ _
  · exact (Keeps.refl _ d).toRulesKept

theorem idle (d : Device) : Keeps A d (idle d) := by
  rcases idle_cases d with ⟨_, _, h⟩ | ⟨c, v, l, _, h⟩ | ⟨v, l, _, h⟩ | ⟨_, h⟩ <;> rw [h]
  · exact .refl A d
  · exact Keeps.modChan (Keeps.countFree (.refl A d)) .ofSame
  · exact (Keeps.refl A d).ofSame
  · exact Keeps.ofSame (Keeps.refl A d)

end Keeps

end Sys2Proof.Machine
end

section
/-! Every row, and every step, keeps the rules of the part. Here the rules of the RAM, of the groups, of the front ends, of the
monitor counters and of RefDivider are settled. -/

namespace Sys2Proof.Machine

-- One theorem after another: a thread for each would take the memory a check allows.
set_option Elab.async false

open Sys2Proof

theorem codeOf_toNat (v : BusWord) : (codeOf v).toNat = codeNat v := by simp [codeOf, codeNat]

/-- A code that names no command is no command's code (R136, R137). -/
theorem commandOf_none {v : BusWord} (h : namesCommand v = false) : commandOf (codeOf v) = none := by
  have hno : codeNat v = 0 ∨ 11 < codeNat v := by
    simp only [namesCommand, Bool.and_eq_false_iff, decide_eq_false_iff_not] at h; omega
  unfold commandOf
  rw [codeOf_toNat]
  split
  any_goals omega
  rfl

/-- The next state that `o` answers, if it answers one, keeps the rules. -/
def KeptBy (A : Nat → Prop) (s : State) (o : Host.Outcome State Fault Refusal) : Prop := ∀ t, o = .next t → RulesKept A s.dev t.dev

namespace KeptBy

variable {A : Nat → Prop} {s : State} {f : Device → Device}

theorem act (h : RulesKept A s.dev (f s.dev)) : KeptBy A s (s.act f) := by
  intro t ht
  cases ht
  exact h

theorem happening (h : Keeps A s.dev (f s.dev)) : KeptBy A s (s.act (happening f)) := act (Keeps.happening (.refl A s.dev) h).toRulesKept

theorem hostAccess {a : Access} (h : Keeps A s.dev (f s.dev)) : KeptBy A s (s.act (hostAccess a f)) :=
  act (Keeps.hostAccess (.refl A s.dev) h).toRulesKept

/-- Own work of a channel. -/
theorem solo {c : Chan} (h : Solo c s.dev (f s.dev)) (hA : holdsRing A c) : KeptBy A s (s.act (Machine.happening f)) :=
  happening ((Keeps.refl A s.dev).solo h hA)

/-- Own work of a channel that writes no byte. -/
theorem soloDry {c : Chan} (h : Solo c s.dev (f s.dev)) (hr : (f s.dev).ram = s.dev.ram) :
    KeptBy A s (s.act (Machine.happening f)) := happening ((Keeps.refl A s.dev).soloDry h hr)

end KeptBy

/-- Every row keeps the rules; it writes at the ring of the channel it acts at, and anywhere where it is a RAM writer, or the
bad-code row of a code that names a command. -/
theorem exec_keptBy (A : Nat → Prop) (i : Instr) (s : State) (hring : ∀ c, ringChannel i = some c → holdsRing A c)
    (hall : otherRamRow i = true ∨ i.wellFormed = false → A = everywhere) : KeptBy A s (exec i s) := by
  have h0 := Keeps.refl A s.dev
  have hs := fun c => Solo.refl c s.dev
  cases i with
  | powerOn => cases hall (.inl rfl); exact .act (Keeps.powerOn s.dev)
  | resetAssert => exact .act (Keeps.resetAssert s.dev)
  | endOfReset => cases hall (.inl rfl); exact .act Keeps.endOfReset
  | enable c => exact .happening (h0.takeCommand (by intro hk; cases hk))
  | disable c => exact .happening (h0.takeCommand fun _ => hring c rfl)
  | startSweep c => exact .happening (h0.takeCommand (by intro hk; cases hk))
  | startTrack c => exact .happening (h0.takeCommand (by intro hk; cases hk))
  | single c => exact .happening (h0.takeCommand (by intro hk; cases hk))
  | apply c => exact .happening (h0.takeCommand (by intro hk; cases hk))
  | stop c => exact .happening (h0.takeCommand fun _ => hring c rfl)
  | abort c => exact .happening (h0.takeCommand fun _ => hring c rfl)
  | clearHalt c => exact .happening (h0.takeCommand (by intro hk; cases hk))
  | clearCounters c => exact .happening (h0.takeCommand (by intro hk; cases hk))
  | resetChannel c => exact .happening (h0.takeCommand fun _ => hring c rfl)
  | commandBadCode v =>
    refine .hostAccess (h0.pageWrite fun c _ h => h.commandAt fun k hk _ => ?_)
    cases hv : namesCommand v with
    | false => rw [commandOf_none hv] at hk; cases hk
    | true => cases hall (.inr (by simp [Instr.wellFormed, hv])); exact holdsRing_everywhere c
  | snapshot => exact .hostAccess h0.cmdSnapshot
  | preload => exact .hostAccess h0.cmdPreload
  | abortPreload => exact .hostAccess h0.cmdAbortPreload
  | deviceCommandBadCode v => exact .hostAccess h0.deviceCommandWrite
  | registerWrite => cases hall (.inl rfl); exact .hostAccess h0.writeAt
  | planTableWrite => cases hall (.inl rfl); exact .hostAccess h0.planWrite
  | ringControlWordWrite c p v => exact .hostAccess (h0.ringControlWrite (hring c rfl))
  | handback c => exact .solo (hs c).takeHandback (hring c rfl)
  | overrunCountWrite v => exact .hostAccess (h0.pageConfigWrite fun _ _ h => h.overrunAt)
  | channelEventSetWrite v => exact .hostAccess (h0.pageWrite fun _ _ h => h.eventClearAt)
  | deviceEventSetWrite v => exact .hostAccess h0.deviceEventWrite
  | eventEnableWrite r v =>
    cases r with
    | channel => exact .hostAccess (h0.pageWrite fun _ _ h => h.enableAt)
    | device => exact .hostAccess h0.deviceEnableWrite
  | membersWrite g v => exact .hostAccess h0.membersWrite
  | leadWrite g v => exact .hostAccess h0.leadWrite
  | txSourceWrite t v => exact .hostAccess h0.txSourceWrite
  | checkerSourceWrite c v => exact .hostAccess h0.checkerSourceWrite
  | generatorModeWrite v => exact .hostAccess (h0.pageConfigWrite fun _ _ h => h.storeGenMode)
  | userWordWrite r v => exact .hostAccess (h0.pageConfigWrite fun _ _ h => h.storeUser)
  | checkerModeWrite r v => exact .hostAccess (h0.pageConfigWrite fun _ _ h => h.storeChecker)
  | refdividerWrite v => exact .hostAccess h0.refDividerWrite
  | msCounterLowRead => exact .hostAccess h0.readAt
  | signalAbsent r => exact .act h0.setActivity.toRulesKept
  | signalPresent r => exact .act h0.setActivity.toRulesKept
  | receiveWord r w => exact .happening h0.receiveWord
  | pointClosure c => exact .happening (h0.fromInbox (hring c rfl))
  | lockGained c => exact .happening h0.lockGained
  | lockLost c => exact .happening (h0.fromInbox (hring c rfl))
  | signalLost c =>
    refine .happening ?_
    split
    · exact (h0.solo (hs c).flushGroup (hring c rfl)).fromInbox (hring c rfl)
    · exact h0
  | tick => exact .happening h0.tick
  | settleTimerExpiry c => exact .soloDry (hs c).takeSettle (takeSettle_ram c _)
  | lockTimerExpiry c => exact .solo (hs c).takeLockTimeout (hring c rfl)
  | intervalTimerExpiry c => exact .soloDry (hs c).takeInterval (takeInterval_ram c _)
  | barrierTimerExpiry g => cases hall (.inl rfl); exact .happening (h0.takeBarrierTimeout holdsRing_everywhere)
  | refLost => exact .happening h0.refLost
  | refOk => exact .happening h0.refOk
  | channelRefclkLoss c =>
    refine .happening ?_
    split
    · exact Keeps.takeRefLoss (h0.solo (hs c).flushGroup (hring c rfl)).modCtl (hring c rfl)
    · exact h0
  | groupRefclkLoss => exact .happening h0.groupLoss
  | checkerRefclkReturn c => exact .happening h0.takeRefReturn
  | planCheckRead c =>
    refine .happening ?_
    split
    · exact h0.channelGrant fun e h => h.soloDry (Solo.refl c e).checkGrant (checkGrant_ram c e)
    · exact h0
  | planCheckEnd c => exact .soloDry (hs c).takeCheckEnd (takeCheckEnd_ram c _)
  | walkFetch c =>
    refine .happening ?_
    split
    · exact h0.channelGrant fun e h => h.solo ((Solo.refl c e).walkGrant _) (hring c rfl)
    · exact h0
  | selectedRefetch c =>
    refine .happening ?_
    split
    · exact h0.channelGrant fun e h => h.solo (Solo.refl c e).selectedGrant (hring c rfl)
    · exact h0
  | singleReturnFetch c =>
    refine .happening ?_
    split
    · exact h0.channelGrant fun e h => h.solo (Solo.refl c e).singleGrant (hring c rfl)
    · exact h0
  | fill c =>
    refine .happening ?_
    split
    · exact h0.channelGrant fun e h => h.solo (Solo.refl c e).fillGrant (hring c rfl)
    · exact h0
  | listRead c =>
    refine .happening ?_
    split
    · exact h0.channelGrant fun e h => h.soloDry (Solo.refl c e).listGrant (listGrant_ram c e)
    · exact h0
  | candidateFetch c =>
    refine .happening ?_
    split
    · exact h0.channelGrant fun e h => h.solo (Solo.refl c e).candidateGrant (hring c rfl)
    · exact h0
  | reapplicationFetch c =>
    refine .happening ?_
    split
    · exact h0.channelGrant fun e h => h.solo (Solo.refl c e).reapplyGrant (hring c rfl)
    · exact h0
  | trackCloseFetch c =>
    refine .happening ?_
    split
    · exact h0.channelGrant fun e h => h.solo (Solo.refl c e).closeGrant (hring c rfl)
    · exact h0
  | groupCheckRead g =>
    refine .happening ?_
    split
    · exact h0.paceGrant fun _ h _ => h.groupCheckGrant
    · exact h0
  | groupCheckEnd g => exact .happening h0.takeGroupCheckEnd
  | groupWalkFetch g =>
    refine .happening ?_
    split
    · exact h0.paceGrant fun _ h _ => h.groupWalkGrant
    · exact h0
  | groupSelectedRefetch g =>
    refine .happening ?_
    split
    · exact h0.paceGrant fun _ h _ => h.groupSelectedGrant
    · exact h0
  | memberTakesCopy c =>
    refine .happening ?_
    split
    · next hm => exact h0.soloDry ((hs c).takeCopy hm) (takeCopy_ram c _ _)
    · exact h0
  | memberReport c => exact .happening h0.takeReport
  | memberTakesAbort c =>
    refine .happening ?_
    split
    · exact h0.solo ((hs c).takeAbort _ _) (hring c rfl)
    · exact h0
  | memberTakesEnding c =>
    refine .happening ?_
    split
    · next hm => exact h0.soloDry ((hs c).takeEnding hm) (takeEnding_ram c _ _ _)
    · exact h0
  | memberTakesHalt c =>
    refine .happening ?_
    split
    · exact h0.solo ((hs c).takeHalt _ _ _) (hring c rfl)
    · exact h0
  | memberHaltReport c => exact .happening h0.takeHaltReport
  | serialTransferDone data => exact .happening h0.takeTransfer
  | preloadRamWrite => cases hall (.inl rfl); exact .happening h0.takeRamWrite
  | nack => exact .happening h0.takeNack
  | retryWaitExpiry => exact .happening h0.takeRetry
  | transferTimeout => exact .happening h0.takeTimeout
  | preloadHandedEnable c => exact .happening h0.takeHandedEnable
  | preloadHandedStartSweep c => exact .happening h0.takeHandedStart
  | wordTime => exact .happening h0.wordTime
  | ringBodyWordWrite c p w v =>
    have hp := p.isLt
    have hw := w.isLt
    exact .hostAccess (h0.ringBodyWrite (hring c rfl) (by unfold ringAddr; omega))

/-- A step keeps the rules. -/
theorem step_keeps {s t : State} (h : step s = .next t) : RulesKept everywhere s.dev t.dev := by
  unfold step at h
  split at h
  · cases h; exact (Keeps.idle s.dev).toRulesKept
  · next i rest _ =>
    exact exec_keptBy everywhere i { s with pending := rest } (fun c _ => holdsRing_everywhere c) (fun _ => rfl) t h

/-- Settles O4: every operation that writes the RAM does so through `writeWord`, which keeps the form. -/
theorem ramCanonicalKept : Obligations.RamCanonicalKept := fun _ _ hs h => (step_keeps h).canonical hs

/-- Settles O5, by the offsets that each row's own work is confined to. -/
theorem ramWritesStayInRing : Obligations.RamWritesStayInRing := by
  intro i s t hw h ho
  have hno : ¬ (otherRamRow i = true ∨ i.wellFormed = false) := by simp [ho, hw]
  split
  · next c hc =>
    have hk := exec_keptBy (inRing c) i s (fun b hb => by rw [hc] at hb; cases hb; exact fun _ => id) (fun hn => absurd hn hno) t h
    exact hk.bytes
  · next hc =>
    have hk := exec_keptBy (fun _ => False) i s (fun b hb => by rw [hc] at hb; cases hb) (fun hn => absurd hn hno) t h
    exact fun a => hk.bytes a id

/-- Settles O7: no operation changes a group's members or lead but by a rule that keeps them legal. -/
theorem groupsRuleKept : Obligations.GroupsRuleKept := fun _ _ hs h => (step_keeps h).groupRules hs

/-- Settles O8: what reaches a front end is the rest settings or a copy that was validated. -/
theorem frontsInRangeKept : Obligations.FrontsInRangeKept := fun _ _ hs h c => (step_keeps h).fronts c (hs c)

/-- Settles O9: a word counts once in the words and at most 32 times in the bits, and RefDivider's write judges its range. -/
theorem monitorsAndRefDividerKept : Obligations.MonitorsAndRefDividerKept := fun _ _ h =>
  ⟨fun hs c => (step_keeps h).monitors c (hs c), (step_keeps h).divider⟩

end Sys2Proof.Machine
end

section
/-! What a step and a row are: the rows of a part held in reset, the queue, the values right after a reset, the rows that are host
writes, and the reports that a line's activity makes. -/

namespace Sys2Proof.Machine

-- One theorem after another: a thread for each would take the memory a check allows.
set_option Elab.async false

open Sys2Proof

/-! ### Every row is a change of the part -/

/-- Every row is a change of the part that leaves the queue alone. -/
theorem exec_acts (i : Instr) (s : State) : ∃ f, exec i s = s.act f := by
  cases i with
  | eventEnableWrite r v => cases r <;> exact ⟨_, rfl⟩
  | _ => exact ⟨_, rfl⟩

/-- Settles O2: no row refuses, traps or touches the queue. -/
theorem everyCommandAnswersNext : Obligations.EveryCommandAnswersNext := by
  intro i s
  obtain ⟨f, hf⟩ := exec_acts i s
  exact ⟨{ s with dev := f s.dev }, hf, rfl⟩

/-- Settles O1: a step by the queue, and the four cases of a step on an empty one. -/
theorem stepRunsFrontCommand : Obligations.StepRunsFrontCommand := by
  have hnil : ∀ s : State, s.pending = [] → step s = .next { s with dev := idle s.dev } := fun s hs => by
    unfold step; rw [hs]
  refine ⟨fun i rest s hs => by unfold step; rw [hs], fun s hs => ⟨fun hno hwork => ?_, fun hwaits => ?_⟩⟩
  · rw [hnil s hs]
    rcases idle_cases s.dev with ⟨_, _, h⟩ | ⟨c, e, l, hc, _⟩ | ⟨e, l, hd, _⟩ | ⟨hb, _⟩
    · rw [h]
    · rw [hno.2 c] at hc; cases hc
    · rw [hno.1] at hd; cases hd
    · exact absurd hb hwork
  · rw [hnil s hs]
    rcases idle_cases s.dev with ⟨hno, hwork, _⟩ | ⟨c, e, l, hc, h⟩ | ⟨e, l, hd, h⟩ | ⟨hb, h⟩
    · exact absurd hwaits (by simp [hno, hwork])
    · exact .inl ⟨c, e, l, hc, by rw [h]; rfl⟩
    · exact .inr (.inl ⟨e, l, hd, by rw [h]; rfl⟩)
    · exact .inr (.inr ⟨hb, by rw [h]⟩)

/-! ### A part held in reset -/

theorem act_happening_held {f : Device → Device} {s : State} (h : s.dev.held = true) : s.act (happening f) = .next s := by
  rw [State.act_eq, happening_held h]

theorem act_hostAccess_held {a : Access} {f : Device → Device} {s : State} (h : s.dev.held = true) :
    s.act (hostAccess a f)
      = .next { s with dev := { s.dev with host := { s.dev.host with waiting := s.dev.host.waiting ++ [a] } } } := by
  rw [State.act_eq, hostAccess, if_pos h]

/-- Settles O3: a row is a happening, a host access, or one of the five that reach a held part. -/
theorem heldPartOnlyWaits : Obligations.HeldPartOnlyWaits := by
  intro i s h hr
  cases i with
  | powerOn | resetAssert | endOfReset | signalAbsent | signalPresent => cases hr
  | commandBadCode | snapshot | preload | abortPreload | deviceCommandBadCode | registerWrite | planTableWrite
  | ringControlWordWrite | overrunCountWrite | channelEventSetWrite | deviceEventSetWrite | checkerSourceWrite
  | generatorModeWrite | refdividerWrite | msCounterLowRead | txSourceWrite | membersWrite => exact act_hostAccess_held h
  | ringBodyWordWrite => exact act_hostAccess_held h
  | leadWrite g v =>
    have ho : groupOffset g 2 = 0x0082 + 0x10 * g.val := by unfold groupOffset; omega
    refine (act_hostAccess_held (a := .write (groupOffset g 2) v) h).trans ?_
    rw [ho]
  | eventEnableWrite r v => cases r <;> exact act_hostAccess_held h
  | userWordWrite r v =>
    cases r <;> exact act_hostAccess_held h
  | checkerModeWrite r v => cases r <;> exact act_hostAccess_held h
  | _ => exact act_happening_held h

/-! ### The values right after a reset -/

theorem afterReset_chan (p r : Bool) (ma : BitVec 2) (a : Eight Bool) (m : List Host.Cell) (e f : Nat) (c : Chan) :
    (Device.afterReset p ma r a m e f).chan c = Channel.default := Eight.get_build _ c

theorem afterReset_group (p r : Bool) (ma : BitVec 2) (a : Eight Bool) (m : List Host.Cell) (e f : Nat) (g : Grp) :
    (Device.afterReset p ma r a m e f).group g = Group.default := Four.get_build _ g

theorem afterReset_ctl (p r : Bool) (ma : BitVec 2) (a : Eight Bool) (m : List Host.Cell) (e f : Nat) (c : Chan) :
    (Device.afterReset p ma r a m e f).ctl c = Controller.default := congrArg Channel.ctl (afterReset_chan p r ma a m e f c)

theorem chanRule_default : chanRule Channel.default := by
  simp [chanRule, stateRule, noWork, Channel.default, Controller.default, Checker.default]

/-- Settles O10: every channel and group is at its default, and the defaults meet the rules. -/
theorem resetMeetsTheRules : Obligations.ResetMeetsTheRules := by
  have hchan : ∀ c, State.reset.dev.chan c = Channel.default := fun c => afterReset_chan _ _ _ _ _ _ _ c
  have hctl : ∀ c, State.reset.dev.ctl c = Controller.default := fun c => afterReset_ctl _ _ _ _ _ _ _ c
  have hgroup : ∀ g, State.reset.dev.group g = Group.default := fun g => afterReset_group _ _ _ _ _ _ _ g
  refine ⟨Memory.wf_nil, ⟨fun c => ?_, fun _ c => ?_, fun h => absurd rfl h⟩, (by intro e he; cases he), ?_, fun c => ?_, fun c => ?_,
    (by decide), by decide⟩
  · rw [hchan]; exact chanRule_default
  · rw [hctl]; exact .inl rfl
  · refine ⟨fun g h c hg => ?_, fun g c hg => ?_, fun g hg => ?_, fun g _ => ?_⟩ <;> rw [hgroup] at *
    · exact absurd hg (by simp [Group.default])
    · cases hg
    · exact absurd rfl hg
    · exact ⟨rfl, rfl, rfl, rfl⟩
  · rw [hchan, hctl]; exact ⟨restSettings_inRange, trivial⟩
  · rw [hchan]; exact ⟨monitorRule_zero, monitorRule_zero⟩

/-- Settles O11: both resets leave every block at its default. -/
theorem resetsHoldThePart : Obligations.ResetsHoldThePart := by
  intro s
  exact ⟨_, _, rfl, rfl, rfl, rfl, rfl, rfl, rfl, rfl, rfl, rfl, rfl, rfl, rfl, rfl,
    fun c => ⟨Eight.get_build _ c, Eight.get_build _ c⟩, fun g => ⟨Four.get_build _ g, Four.get_build _ g⟩,
    fun k => ⟨Eight.get_build _ k, Eight.get_build _ k⟩, rfl, rfl, rfl, rfl, rfl, rfl, rfl, rfl⟩

/-! ### Rows that are host writes -/

/-- The register write of an offset below 0x2000. -/
theorem exec_registerWrite_at {o : Nat} (a : BitVec 12) (v : BusWord) (s : State) (h : o = 2 * a.toNat) :
    exec (.registerWrite a v) s = s.act (hostAccess (.write o v) (writeAt o v)) := by rw [h]; rfl

theorem writeAt_members (g : Grp) (v : BusWord) : writeAt (groupOffset g 0) v = membersWrite g v := by
  fin_cases g <;> rfl

theorem writeAt_lead (g : Grp) (v : BusWord) : writeAt (groupOffset g 2) v = leadWrite g v := by
  fin_cases g <;> rfl

theorem writeAt_barrierTimeout (g : Grp) (v : BusWord) :
    writeAt (groupOffset g 0xA) v = unlessPreload (groupOffset g 0xA) (storeBarrierTimeout g v) := by
  fin_cases g <;> rfl

theorem writeAt_dwell (k : Fin 8) (v : BusWord) : writeAt (0x0020 + 2 * k.val) v = unlessPreload (0x0020 + 2 * k.val) (storeDwell k v) := by
  fin_cases k <;> rfl

theorem writeAt_txSource (t : Chan) (v : BusWord) : writeAt (0x0030 + 2 * t.val) v = txSourceWrite t v := by
  fin_cases t <;> rfl

theorem writeAt_checkerSource (c : Chan) (v : BusWord) : writeAt (0x0040 + 2 * c.val) v = checkerSourceWrite c v := by
  fin_cases c <;> rfl

theorem writeAt_user (r : UserReg) (v : BusWord) : writeAt (userOffset r) v = pageConfigWrite (userOffset r) (storeUser r v) := by
  cases r with
  | length => rfl
  | word q high => fin_cases q <;> cases high <;> rfl

theorem writeAt_checker (r : CheckerReg) (v : BusWord) :
    writeAt (checkerOffset r) v = pageConfigWrite (checkerOffset r) (storeChecker r v) := by
  cases r <;> rfl

theorem writeAt_plan {o : Nat} (v : BusWord) (hlow : 0x0400 ≤ o) (hhigh : o < 0x0800) : writeAt o v = planWrite o v := by
  funext d
  unfold writeAt
  rw [if_neg (by omega), dif_neg (by omega), if_neg (by omega), if_neg (by omega), if_neg (by omega), if_pos hhigh]

theorem writeAt_ring {o : Nat} (v : BusWord) (hlow : 0x0800 ≤ o) (hhigh : o < 0x1800) : writeAt o v = ringWriteAt o v := by
  funext d
  unfold writeAt
  rw [if_neg (by omega), dif_neg (by omega), if_neg (by omega), if_neg (by omega), if_neg (by omega), if_neg (by omega),
    if_pos hhigh]

theorem writeAt_ringControl (c : Chan) (p : RingPos) (v : BusWord) : writeAt (ringAddr c p) v = ringControlWrite c p v := by
  have hc := c.isLt
  have hp := p.isLt
  have ho : ringAddr c p = 0x0800 + 0x200 * c.val + 32 * p.val := rfl
  rw [writeAt_ring v (by omega) (by omega)]
  funext d
  have hpos : (ringAddr c p - 0x0800) % 32 = 0 := by omega
  have hchan : (⟨(ringAddr c p - 0x0800) / 512 % 8, Nat.mod_lt _ (by decide)⟩ : Chan) = c := Fin.ext (by simp only; omega)
  have hring : (⟨(ringAddr c p - 0x0800) / 32 % 16, Nat.mod_lt _ (by decide)⟩ : RingPos) = p := Fin.ext (by simp only; omega)
  unfold ringWriteAt
  simp only [hpos, hchan, hring, if_true]

theorem writeAt_ringBody (c : Chan) (p : RingPos) (w : Fin 15) (v : BusWord) :
    writeAt (ringAddr c p + 2 * (w.val + 1)) v = ringBodyWrite c (ringAddr c p + 2 * (w.val + 1)) v := by
  have hc := c.isLt
  have hp := p.isLt
  have hw := w.isLt
  have ho : ringAddr c p = 0x0800 + 0x200 * c.val + 32 * p.val := rfl
  rw [writeAt_ring v (by omega) (by omega)]
  funext d
  have hpos : (ringAddr c p + 2 * (w.val + 1) - 0x0800) % 32 ≠ 0 := by omega
  have hchan : (⟨(ringAddr c p + 2 * (w.val + 1) - 0x0800) / 512 % 8, Nat.mod_lt _ (by decide)⟩ : Chan) = c :=
    Fin.ext (by simp only; omega)
  unfold ringWriteAt
  simp only [hpos, hchan, if_false]

/-- Settles O28: at each offset that has a row of its own, the register write is that row. -/
theorem rowsAreRegisterWrites : Obligations.RowsAreRegisterWrites := by
  intro i a v s _ ha
  have hwrite : ∀ {o w f}, some (Access.write o w) = some (Access.write (2 * a.toNat) v) → writeAt o w = f →
      s.act (hostAccess (.write o w) f) = exec (.registerWrite a v) s := fun ho hf => by
    cases ho; subst hf; rfl
  cases i with
  | commandBadCode | snapshot | preload | abortPreload | deviceCommandBadCode | registerWrite | overrunCountWrite
  | channelEventSetWrite | deviceEventSetWrite | generatorModeWrite | refdividerWrite => exact hwrite ha rfl
  | planTableWrite n w u =>
    have hn := n.isLt
    have hw := w.isLt
    exact hwrite ha (writeAt_plan u (by unfold entryAddr; omega) (by unfold entryAddr; omega))
  | ringControlWordWrite c p u => exact hwrite ha (writeAt_ringControl c p u)
  | ringBodyWordWrite c p w u => exact hwrite ha (writeAt_ringBody c p w u)
  | eventEnableWrite r u => cases r <;> exact hwrite ha rfl
  | membersWrite g u => exact hwrite ha (writeAt_members g u)
  | leadWrite g u =>
    have ho : groupOffset g 2 = 0x0082 + 0x10 * g.val := by unfold groupOffset; omega
    exact hwrite ((congrArg (fun o => some (Access.write o u)) ho).trans ha) (writeAt_lead g u)
  | txSourceWrite t u => exact hwrite ha (writeAt_txSource t u)
  | checkerSourceWrite c u => exact hwrite ha (writeAt_checkerSource c u)
  | userWordWrite r u => cases r <;> exact hwrite ha (writeAt_user _ u)
  | checkerModeWrite r u => cases r <;> exact hwrite ha (writeAt_checker _ u)
  | msCounterLowRead => cases ha
  | _ => cases ha

/-! ### Snapshots and signal reports -/

/-- Settles O34: the copies of the channels that the argument names are one change of the channel table. -/
theorem snapshotCopiesNamedChannels : Obligations.SnapshotCopiesNamedChannels := by
  intro s h
  have hnamed : ∀ c : Chan, inMask (s.dev.host.argument.setWidth 8) c = s.dev.host.argument.getLsbD c.val := fun c => by
    have := c.isLt
    simp only [inMask, BitVec.getLsbD_setWidth, this, decide_true, Bool.true_and]
  change s.act (hostAccess _ cmdSnapshot) = _
  rw [State.act_eq, hostAccess_running h, cmdSnapshot]
  congr 2
  refine (forMask_modChan _ (fun c k => _) _).trans (mapChans_congr fun c => ?_)
  simp only [deviceStatus, hnamed]

theorem mapChans_same (d : Device) : mapChans (fun _ k => k) d = d := by simp [mapChans, Device.chan]

/-- A change of a lane's report at every checker that watches the lane. -/
theorem reportChanged_eq (r : Chan) (p : Bool) (d : Device) :
    reportChanged r p d =
      mapChans (fun c k => if d.time.present = true ∧ d.lanes.checkerSource.get c = r then hearReport p k else k) d := by
  unfold reportChanged
  split
  · next hp =>
    refine (forChans_inv (fun e => e.lanes = d.lanes) _ (fun c k => if d.lanes.checkerSource.get c = r then hearReport p k else k)
      (fun c e he => ?_) (fun c e he => he) d rfl).trans (mapChans_congr fun c => by simp [hp])
    rw [he, atChecker_eq, ite_modChan]
    exact modChan_congr (by simp only [stepAt_report])
  · next hp =>
    exact (mapChans_same d).symm.trans (mapChans_congr fun c => by simp [hp])

/-- Settles O39: the report of a powered lane changes with its line's activity. -/
theorem signalReportsReachWatchers : Obligations.SignalReportsReachWatchers := by
  intro r p s
  have hrow : exec (if p then .signalPresent r else .signalAbsent r) s = s.act (setActivity r p) := by cases p <;> rfl
  rw [hrow, State.act_eq]
  congr 2
  unfold setActivity
  dsimp only
  have hbefore : laneReport s.dev r = (decide ((s.dev.ctl r).state ≠ .off) && s.dev.lanes.activity.get r) := rfl
  have hafter : laneReport { s.dev with lanes := { s.dev.lanes with activity := s.dev.lanes.activity.set r p } } r
      = (decide ((s.dev.ctl r).state ≠ .off) && p) := by
    simp only [laneReport, Eight.get_set_self]; rfl
  have hchanges : (!s.dev.held && laneReport s.dev r !=
      laneReport { s.dev with lanes := { s.dev.lanes with activity := s.dev.lanes.activity.set r p } } r) = true
      ↔ s.dev.held = false ∧ (s.dev.ctl r).state ≠ .off ∧ s.dev.lanes.activity.get r ≠ p := by
    rw [hbefore, hafter]
    by_cases ho : (s.dev.ctl r).state = .off <;> simp [ho]
  by_cases hc : s.dev.held = false ∧ (s.dev.ctl r).state ≠ .off ∧ s.dev.lanes.activity.get r ≠ p
  · rw [if_pos (hchanges.2 hc), reportChanged_eq]
    refine mapChans_congr fun c => ?_
    obtain ⟨hheld, hoff, hact⟩ := hc
    simp only [hheld, hoff, hact, ne_eq, not_false_eq_true, true_and]
  · rw [if_neg (mt hchanges.1 hc)]
    refine (mapChans_same _).symm.trans (mapChans_congr fun c => ?_)
    rw [if_neg]
    rintro ⟨hheld, _, hoff, hact, _⟩
    exact hc ⟨hheld, hoff, hact⟩

end Sys2Proof.Machine
end

section
/-! The channel commands: what each is refused for, and what it does where it is refused for nothing (R47, R66, R67, R71, R94, R119,
R136, R137). -/

namespace Sys2Proof.Machine

-- One theorem after another: a thread for each would take the memory a check allows.
set_option Elab.async false

open Sys2Proof

/-! ### Rows of channel commands -/

theorem exec_channelRow_running (k : Command) (c : Chan) {s : State} (h : s.dev.held = false) :
    exec (channelRow k c) s = .next { s with dev := takeCommand k c s.dev } := by
  cases k <;> exact congrArg (fun d => Host.Outcome.next { s with dev := d }) (happening_running h)

theorem flushGroup_none {c : Chan} {d : Device} (h : (d.ctl c).message = none) : flushGroup c d = d := by
  unfold flushGroup; rw [h]

theorem takeCommand_stop {c : Chan} {d : Device} (h : (d.ctl c).message = none) : takeCommand .stop c d = cmdStop c d := by
  change cmdStop c (flushGroup c d) = _; rw [flushGroup_none h]

theorem takeCommand_abort {c : Chan} {d : Device} (h : (d.ctl c).message = none) : takeCommand .abort c d = cmdAbort c d := by
  change cmdAbort c (flushGroup c d) = _; rw [flushGroup_none h]

/-! ### A command as the table of its conditions -/

/-- What a command does by the table of its conditions: refused by the first that holds, and else `x`. -/
def unlessRefused (code : BitVec 8) (c : Chan) (d x : Device) (o : Option LastStatus) : Device :=
  o.elim x fun st => modChan c (withRefusal code st) d

variable {code : BitVec 8} {c : Chan} {d x : Device}

@[simp] theorem unlessRefused_nil : unlessRefused code c d x (firstHolding []) = x := rfl

@[simp] theorem unlessRefused_cons (b : Bool) (st : LastStatus) (t : List (Bool × LastStatus)) :
    unlessRefused code c d x (firstHolding ((b, st) :: t)) =
      if b then modChan c (withRefusal code st) d else unlessRefused code c d x (firstHolding t) := by
  cases b <;> rfl

theorem unlessRefused_some {o : Option LastStatus} {st : LastStatus} (h : o = some st) :
    unlessRefused code c d x o = modChan c (withRefusal code st) d := by rw [h]; rfl

theorem unlessRefused_none {o : Option LastStatus} (h : o = none) : unlessRefused code c d x o = x := by rw [h]; rfl

/-- A channel that a command cannot start work at, by its state and by its group (R118). -/
theorem freeToStart_not (hr : groupsRule d) :
    (((d.ctl c).state != .idle && (d.ctl c).state != .applied) || inRunning d c) = !freeToStart d c := by
  unfold freeToStart
  rw [inRunning_eq hr]
  cases hs : (d.ctl c).state <;> cases hg : runningGroup d c <;> rfl

theorem cmdEnable_eq : cmdEnable c d = unlessRefused 0x01 c d (powerUp c (accept 0x01 .accepted c d)) (refusalOf d c .enable) := by
  simp only [refusalOf, unlessRefused_cons, unlessRefused_nil, cmdEnable, refuse_eq, bne_iff_ne]

/-- START_SWEEP once no condition refuses it: the group's start, or a check of the channel's own. -/
def sweepStarted (c : Chan) (d : Device) : Device :=
  (groupOf d c).elim (beginCheck c (accept 0x03 .checking c d)) fun g =>
    groupStart g c (configOf d c) (windowRegs d c) (accept 0x03 .checking c d)

theorem cmdStartSweep_eq (hr : groupsRule d) :
    cmdStartSweep c d = unlessRefused 0x03 c d (sweepStarted c d) (refusalOf d c .startSweep) := by
  simp only [refusalOf, unlessRefused_cons, unlessRefused_nil, cmdStartSweep, refuse_eq, freeToStart_not hr, isFollower_eq hr,
    configFails_eq, configOf, sweepStarted]
  cases hg : groupOf d c with
  | none =>
    have hno : groupNotReady d c = false := by
      rw [groupOf_none] at hg
      simp [groupNotReady, hg]
    simp only [hno, Bool.false_eq_true, if_false]
    rfl
  | some g =>
    rw [notReady_eq hr hg]
    by_cases hready : groupReady d g = true <;> simp [hready]

/-- START_TRACK once no condition refuses it. -/
def trackStarted (c : Chan) (d : Device) : Device :=
  enterTrack c (modCtl c (fun k => { k with force := some (configOf d c) }) (accept 0x04 .accepted c d))

theorem cmdStartTrack_eq (hr : groupsRule d) :
    cmdStartTrack c d = unlessRefused 0x04 c d (trackStarted c d) (refusalOf d c .startTrack) := by
  have hstate : ((d.ctl c).state != .applied || inRunning d c)
      = (!decide ((d.ctl c).state = .applied) || !(runningGroup d c).isNone) := by
    rw [inRunning_eq hr]
    cases hs : (d.ctl c).state <;> cases hg : runningGroup d c <;> rfl
  simp only [refusalOf, unlessRefused_cons, unlessRefused_nil, cmdStartTrack, refuse_eq, hstate, isFollower_eq hr, configFails_eq,
    configOf, isMember_eq, trackStarted, Bool.not_and]

theorem singleWindow_eq : singleWindow d c = singleJudges d c := by
  unfold singleWindow singleJudges
  cases (d.ctl c).state <;> cases (d.ctl c).window <;> rfl

/-- SINGLE once no condition refuses it: its directed fetch, and its point or the refusal of a fetch that fails. -/
def singleFetched (c : Chan) (d : Device) : Device :=
  (argIn d c (singleWindow d c)).elim d fun i =>
    match directedFetch d i none with
    | .error r => refuse 0x05 .badArg c (showFetchFailure c r i (takeTurn c d))
    | .ok p => beginSingle c (singleWindow d c) p (accept 0x05 .accepted c (takeTurn c d))

theorem cmdSingle_eq (hr : groupsRule d) : cmdSingle c d = unlessRefused 0x05 c d (singleFetched c d) (refusalOf d c .single) := by
  simp only [refusalOf, unlessRefused_cons, unlessRefused_nil, cmdSingle, refuse_eq, freeToStart_not hr, configFails_eq, configOf,
    ← singleWindow_eq, singleFetched]
  cases ha : argIn d c (singleWindow d c) with
  | none => rw [if_pos (argIn_eq d c _ |>.1 ha)]
  | some i =>
    have hin : ¬ argOutside d c (singleWindow d c) = true := fun h => by rw [(argIn_eq d c _).2 h] at ha; cases ha
    rw [if_neg hin]; rfl

/-- APPLY once no condition refuses it: its directed fetch, and its entry applied or the refusal of a fetch that fails. -/
def applyFetched (c : Chan) (d : Device) : Device :=
  (argIn d c (windowRegs d c)).elim d fun i =>
    match directedFetch d i none with
    | .error r => refuse 0x06 .badArg c (showFetchFailure c r i (takeTurn c d))
    | .ok p => beginApply c (windowRegs d c) p (accept 0x06 .accepted c (takeTurn c d))

theorem cmdApply_eq (hr : groupsRule d) : cmdApply c d = unlessRefused 0x06 c d (applyFetched c d) (refusalOf d c .apply) := by
  have hw : windowRegs d c = { first := (d.chan c).config.winFirst, last := (d.chan c).config.winLast } := rfl
  simp only [refusalOf, unlessRefused_cons, unlessRefused_nil, cmdApply, refuse_eq, freeToStart_not hr, ← hw, applyFetched]
  cases ha : argIn d c (windowRegs d c) with
  | none => rw [if_pos (argIn_eq d c _ |>.1 ha)]
  | some i =>
    have hin : ¬ argOutside d c (windowRegs d c) = true := fun h => by rw [(argIn_eq d c _).2 h] at ha; cases ha
    rw [if_neg hin]; rfl

/-! ### STOP and ABORT -/

theorem cmdStop_refused (hr : groupsRule d) {st : LastStatus} (h : refusalOf d c .stop = some st) :
    cmdStop c d = modChan c (withRefusal 0x07 st) d := by
  rw [← refuse_eq]
  unfold refusalOf at h
  cases hs : (d.ctl c).state with
  | sweep =>
    simp only [hs, firstHolding, bne_self_eq_false, Bool.false_and, Bool.false_eq_true, if_false, beq_self_eq_true, Bool.true_and,
      inRunning_eq hr, isFollower_eq hr] at h
    split at h
    · next hfollows =>
      cases h
      obtain ⟨hrun, hnot⟩ := Bool.and_eq_true_iff.1 hfollows
      obtain ⟨g, hg⟩ := Option.isSome_iff_exists.1 hrun
      have hof : groupOf d c = some g := groupOf_of hr (runningGroup_some hg).2
      rw [followsOnly, hof] at hnot
      unfold cmdStop
      simp only [hs, hg]
      rw [if_neg (by simpa using hnot)]
    · cases h
  | track => simp [hs, firstHolding] at h
  | off | idle | applied | halted =>
    simp only [hs, firstHolding] at h
    cases h
    unfold cmdStop
    simp only [hs]

theorem cmdAbort_refused {st : LastStatus} (h : refusalOf d c .abort = some st) :
    cmdAbort c d = modChan c (withRefusal 0x08 st) d := by
  rw [← refuse_eq]
  unfold refusalOf at h
  cases hs : (d.ctl c).state with
  | sweep | track => simp [hs, firstHolding] at h
  | off | idle | applied | halted =>
    simp only [hs, firstHolding] at h
    cases h
    unfold cmdAbort
    simp only [hs]

/-- Settles O13: each command judges the conditions of its rule in the rule's order. -/
theorem refusedCommandChangesStatusOnly : Obligations.RefusedCommandChangesStatusOnly := by
  intro k c s st hheld hr hnone h
  rw [exec_channelRow_running k c hheld]
  congr 2
  cases k with
  | enable => exact cmdEnable_eq.trans (unlessRefused_some h)
  | disable => cases h
  | startSweep => exact (cmdStartSweep_eq hr).trans (unlessRefused_some h)
  | startTrack => exact (cmdStartTrack_eq hr).trans (unlessRefused_some h)
  | single => exact (cmdSingle_eq hr).trans (unlessRefused_some h)
  | apply => exact (cmdApply_eq hr).trans (unlessRefused_some h)
  | stop => rw [takeCommand_stop (hnone (.inl rfl))]; exact cmdStop_refused hr h
  | abort => rw [takeCommand_abort (hnone (.inr rfl))]; exact cmdAbort_refused h
  | clearHalt =>
    simp only [refusalOf, firstHolding] at h
    split at h
    · next hs => cases h; exact cmdClearHalt_elsewhere (by simpa using hs)
    · cases h
  | clearCounters =>
    simp only [refusalOf, firstHolding] at h
    split at h
    · next hs => cases h; exact cmdClearCounters_off (by simpa using hs)
    · cases h
  | resetChannel => cases h

/-! ### Commands that are taken -/

/-- Settles O18: START_SWEEP of a solo channel is the copy of its window and configuration. -/
theorem startSweepEntersCheck : Obligations.StartSweepEntersCheck := by
  intro c s hheld hr h hsolo
  rw [exec_startSweep_running c hheld, cmdStartSweep_eq hr, unlessRefused_none h, sweepStarted]
  have hnone : groupOf s.dev c = none := by
    rw [isMember_eq] at hsolo
    simpa using hsolo
  rw [hnone, Option.elim_none, accept_eq, beginCheck]
  congr 2
  simp only [modCtl, modChan_modChan, windowRegs, configOf, modChan_chan_self, checkStart]
  refine modChan_congr ?_
  simp only [apply_ite]

/-- Settles O20: START_TRACK enters TRACK on the configuration just copied. -/
theorem startTrackEntersWait : Obligations.StartTrackEntersWait := by
  intro c s hheld hr h
  rw [show exec (.startTrack c) s = _ from exec_channelRow_running .startTrack c hheld]
  change Host.Outcome.next { s with dev := cmdStartTrack c s.dev } = _
  rw [cmdStartTrack_eq hr, unlessRefused_none h, trackStarted, accept_eq]
  congr 2
  simp only [enterTrack, enterWait, modCtl, modChan_modChan]
  rfl

theorem validate_index {d : Device} {i : Idx} {k : Fin 8} {e : Entry} {p : Copy} (h : validate d i k e = .ok p) : p.index = i := by
  unfold validate at h
  split at h
  · cases h
  · split at h
    · cases h
    · cases h; rfl

/-- A fetch that passes hands the copy of the entry it is for. -/
theorem directedFetch_index {d : Device} {i : Idx} {k : Option (Fin 8)} {p : Copy} (h : directedFetch d i k = .ok p) :
    p.index = i := by
  unfold directedFetch at h
  dsimp only at h
  split at h
  · cases h
  · exact validate_index h

/-- Settles O21: the entry that the argument names is read within the command. -/
theorem applyFetchesAndApplies : Obligations.ApplyFetchesAndApplies := by
  intro c s i hheld hr h hi
  have hin : argOutside s.dev c (windowRegs s.dev c) = false := by
    simp only [refusalOf, firstHolding] at h
    split_ifs at h with _ _ _ hin
    exact eq_false_of_ne_true hin
  have hexec : exec (.apply c) s = .next { s with dev := applyFetched c s.dev } := by
    rw [exec_apply_running c hheld, cmdApply_eq hr, unlessRefused_none h]
  rw [hexec, applyFetched, argIn_some hin hi, Option.elim_some]
  cases hf : directedFetch s.dev i none with
  | error r =>
    simp only [refuse_eq, showFetchFailure_eq, modChan_modChan]; rfl
  | ok p =>
    have hp := directedFetch_index hf
    subst hp
    simp only [beginApply, applyCurrent, accept_eq, modCtl, modChan_modChan]
    congr 2

theorem forceOf_some {k : Controller} {x : SweepConfig} (h : k.force = some x) : forceOf k = x := by rw [forceOf, h]; rfl

/-- The settle of an applied entry, by the Settle Time in force (R50, R51). -/
theorem settleFrom_eq (c : Chan) (p : Copy) (d : Device) :
    settleFrom c p d =
      let d1 := modCtl c (fun k =>
        { k with task := .settle p, timer := some { kind := .settle, left := (forceOf (d.ctl c)).settleTime.toNat } }) d
      if (forceOf (d.ctl c)).settleTime = 0 then enterLockwait c p d1 else d1 := by
  have hzero : (forceOf (d.ctl c)).settleTime.toNat = 0 ↔ (forceOf (d.ctl c)).settleTime = 0 :=
    ⟨fun h => BitVec.eq_of_toNat_eq h, fun h => by rw [h]; rfl⟩
  simp only [settleFrom, hzero]

/-- Settles O22: SINGLE's directed fetch, and the point it begins. -/
theorem singleBeginsItsPoint : Obligations.SingleBeginsItsPoint := by
  intro c s i hheld hr h hi
  have hin : argOutside s.dev c (singleWindow s.dev c) = false := by
    simp only [refusalOf, firstHolding] at h
    split_ifs at h with _ _ _ _ hin
    rw [singleWindow_eq]; exact eq_false_of_ne_true hin
  have hexec : exec (.single c) s = .next { s with dev := singleFetched c s.dev } := by
    rw [exec_single_running c hheld, cmdSingle_eq hr, unlessRefused_none h]
  rw [hexec, singleFetched, argIn_some hin hi, Option.elim_some]
  cases hf : directedFetch s.dev i none with
  | error r =>
    simp only [refuse_eq, showFetchFailure_eq, modChan_modChan]; rfl
  | ok p =>
    have hp := directedFetch_index hf
    subst hp
    simp only [beginSingle, beginSettle_eq, settleFrom_eq, applyCurrent, accept_eq, modCtl, modChan_modChan, modChan_ctl_self,
      singleWindow_eq, forceOf, Option.getD_some, configOf, modChan_chan_self, takeTurn_chan]
    exact congrArg (fun x => Host.Outcome.next
      { s with dev := if (s.dev.chan c).config.sweep.settleTime = 0 then enterLockwait c p x else x }) (modChan_congr rfl)

/-! ### The start of a group's sweep -/

theorem mapChans_ctl (f : Chan → Channel → Channel) (d : Device) (c : Chan) : (mapChans f d).ctl c = (f c (d.chan c)).ctl :=
  congrArg Channel.ctl (mapChans_chan f d c)

theorem paceRefresh_form (d : Device) :
    paceRefresh d = { d with arbiter := { d.arbiter with paceRequest := (paceRefresh d).arbiter.paceRequest } } := by
  unfold paceRefresh
  split
  · split
    · rfl
    · rfl
  · rfl

theorem paceRefresh_chan (d : Device) (b : Chan) : (paceRefresh d).chan b = d.chan b := by rw [Device.chan, paceRefresh_chans]; rfl

/-- Everything the start of a group's sweep does (R119). -/
theorem groupStart_eq (g : Grp) (lead : Chan) (x : SweepConfig) (w : Window) (d : Device) :
    groupStart g lead x w d =
      paceRefresh (mapChans (fun b k =>
          let joined := if inMask (d.group g).members b then { k with ctl := joinSweep g x w k.ctl } else k
          if b = lead then
            { joined with ctl := { joined.ctl with planCheck := { result := .running, index := w.first, fetch := false } } }
          else joined)
        (modGroup g (fun y =>
          { y with
            state := .running, current := none, atBarrier := 0, selection := Selection.cleared, task := .check (checkStart w),
            begun := false, halting := false, force := some x, window := some w, reports := Eight.build fun _ => none,
            barrier := none }) d)) := by
  unfold groupStart
  dsimp only
  rw [show (forMask (d.group g).members (fun c d => modCtl c (joinSweep g x w) d)) = _ from funext
    (forMask_modChan (d.group g).members (fun _ k => { k with ctl := joinSweep g x w k.ctl }))]
  rw [modCtl, modChan_eq_mapChans, mapChans_mapChans]

/-- Settles O19: the start is one change of the channel table, one of the group's record and a request to the arbiter. -/
theorem leadStartsItsGroup : Obligations.LeadStartsItsGroup := by
  intro c g s hheld hr h hm
  have hof : groupOf s.dev c = some g := groupOf_of hr hm
  have hexec : exec (.startSweep c) s = .next { s with
      dev := groupStart g c (configOf s.dev c) (windowRegs s.dev c) (accept 0x03 .checking c s.dev) } := by
    rw [exec_startSweep_running c hheld, cmdStartSweep_eq hr, unlessRefused_none h, sweepStarted, hof, Option.elim_some]
  refine ⟨_, hexec, rfl, ?_, ?_, ?_, ?_, fun b => ?_⟩
  · rw [groupStart_eq, paceRefresh_form]; rfl
  · rw [groupStart_eq, paceRefresh_form]; rfl
  · rw [groupStart_eq, paceRefresh_group, mapChans_group, modGroup_group_self]; rfl
  · intro k hk
    rw [groupStart_eq, paceRefresh_group, mapChans_group, modGroup_group, if_neg hk]; rfl
  · rw [groupStart_eq, paceRefresh_chan, mapChans_chan]
    simp only [modGroup_chan, accept_eq, modCtl_chan]
    by_cases hb : b = c
    · subst hb
      simp only [if_true, modCtl_group, hm]
      rfl
    · simp only [hb, if_false, modCtl_group]
      split <;> rfl

/-! ### The Command register -/

theorem takeCommand_held (k : Command) (c : Chan) (d : Device) : (takeCommand k c d).held = d.held :=
  ((Keeps.refl everywhere d).takeCommand fun _ => holdsRing_everywhere c).held

/-- Command rows at the channels of a list are the command at each of them in turn. -/
theorem runAll_channelRows (k : Command) (l : List Chan) (s : State) (h : s.dev.held = false) :
    runAll (l.map (channelRow k)) s = { s with dev := l.foldl (fun d c => takeCommand k c d) s.dev } := by
  induction l generalizing s with
  | nil => rfl
  | cons c l ih =>
    simp only [List.map_cons, runAll, exec_channelRow_running k c h, List.foldl_cons]
    exact ih _ ((takeCommand_held k c s.dev).trans h)

theorem forMask_eq_filter (m : BitVec 8) (f : Chan → Device → Device) (d : Device) :
    forMask m f d = (allChans.filter (inMask m)).foldl (fun d c => f c d) d := by
  rw [List.foldl_filter]; rfl

theorem commandOf_code {v : BusWord} {k : Command} (h : codeNat v = (commandCode k).toNat) : commandOf (codeOf v) = some k := by
  unfold commandOf
  rw [codeOf_toNat, h]
  cases k <;> rfl

/-- Settles O14: a write of the Command register is taken at the selected channels in turn. -/
theorem commandWriteReachesSelectedChannels : Obligations.CommandWriteReachesSelectedChannels := by
  intro v s hheld hmask
  have hwrite : exec (.commandBadCode v) s = .next { s with dev := forMask s.dev.host.pageMask (commandAt v) s.dev } := by
    change s.act (hostAccess _ (pageWrite 0x0100 (commandAt v))) = _
    rw [State.act_eq, hostAccess_running hheld, pageWrite, if_neg hmask]
  have hsame : exec (.registerWrite 0x080 v) s = exec (.commandBadCode v) s := rfl
  refine ⟨fun hno => ⟨?_, hsame⟩, fun k hk => ?_⟩
  · rw [hwrite]
    have hat : commandAt v = fun c => modChan c (withRefusal (v.setWidth 8) .badCode) := by
      funext c d
      unfold commandAt
      rw [commandOf_none hno, refuse_eq]; rfl
    rw [hat]
  · have hat : commandAt v = takeCommand k := by
      funext c d
      unfold commandAt
      rw [commandOf_code hk]
    rw [hsame, hwrite, hat, forMask_eq_filter, runAll_channelRows k _ s hheld]

end Sys2Proof.Machine
end

section
/-! ENABLE, and the end of a reset (R20, R26, R28, R29, R71, R163, R166, R167, R179). -/

namespace Sys2Proof.Machine

-- One theorem after another: a thread for each would take the memory a check allows.
set_option Elab.async false

open Sys2Proof

variable {c : Chan} {d : Device}

/-! ### ENABLE -/

/-- A checker that has just left OFF hears nothing new in a report of signal, where it was the report it left OFF by. -/
theorem hearReport_leftOff {k : Channel} (h : k.chk.state = .search ∨ k.chk.state = .off) : hearReport true k = k := by
  unfold hearReport
  rcases h with h | h <;> rw [h]

/-- The channel that ENABLE leaves, by the report of its checker's lane. -/
def poweredUp (heard : Bool) (k : Channel) : Channel :=
  { k with
    front := restSettings, gen := genRestart k.gen, chk := chkLeaveOff heard k.chk, ctl := { k.ctl with state := .idle, current := none } }

/-- The report of the lane that channel `c`'s checker watches, once the channel is powered. -/
def heardOnceUp (d : Device) (c : Chan) : Bool :=
  d.lanes.activity.get (d.lanes.checkerSource.get c)
    && (d.lanes.checkerSource.get c == c || (d.ctl (d.lanes.checkerSource.get c)).state != .off)

/-- Everything that powering up does, where the checker is OFF (R28). -/
theorem powerUp_eq (hoff : (d.chan c).chk.state = .off) :
    powerUp c d =
      mapChans (fun b k =>
        if b = c then poweredUp (heardOnceUp d c) k
        else if d.time.present = true ∧ d.lanes.checkerSource.get b = c ∧ d.lanes.activity.get c = true then hearReport true k
        else k) d := by
  have hlane : ∀ f : Channel → Channel, (∀ k, (f k).ctl.state ≠ .off) → ∀ r,
      laneReport (modChan c f d) r = (d.lanes.activity.get r && (r == c || (d.ctl r).state != .off)) := fun f hf r => by
    unfold laneReport
    rw [modChan_ctl, modChan_lanes]
    by_cases hr : r = c
    · simp [hr, hf]
    · by_cases ho : (d.ctl r).state = .off <;> simp [hr, ho]
  have hup : ∀ k : Channel, (poweredUp (heardOnceUp d c) k).ctl.state ≠ .off := fun k => by simp [poweredUp]
  have hboth : powerUp c d =
      (if laneReport (modChan c (poweredUp (heardOnceUp d c)) d) c then reportChanged c true (modChan c (poweredUp (heardOnceUp d c)) d)
        else modChan c (poweredUp (heardOnceUp d c)) d) := by
    unfold powerUp
    dsimp only
    rw [modChan_modChan]
    have hsource : sourceReport (modChan c (fun k => { k with
        front := restSettings, gen := genRestart k.gen, ctl := { k.ctl with state := .idle, current := none } }) d) c
        = heardOnceUp d c := by
      rw [sourceReport, hlane _ (fun k => by simp)]; rfl
    rw [hsource]
    rfl
  rw [hboth, hlane _ hup, modChan_eq_mapChans, beq_self_eq_true, Bool.true_or, Bool.and_true]
  split
  · next hact =>
    rw [reportChanged_eq, mapChans_mapChans]
    refine mapChans_congr fun b => ?_
    have hlanes : (mapChans (fun b k => if b = c then poweredUp (heardOnceUp d c) k else k) d).lanes = d.lanes := rfl
    have htime : (mapChans (fun b k => if b = c then poweredUp (heardOnceUp d c) k else k) d).time = d.time := rfl
    by_cases hb : b = c
    · subst hb
      simp only [if_true, hlanes, htime]
      split
      · next hwatch =>
        refine hearReport_leftOff ?_
        have hheard : heardOnceUp d b = true := by simp [heardOnceUp, hwatch.2, hact]
        simp only [poweredUp, chkLeaveOff, hheard, if_true]
        split
        · exact .inr hoff
        · exact .inl rfl
      · rfl
    · simp only [hb, if_false, hlanes, htime, hact, and_true]
  · next hact =>
    refine mapChans_congr fun b => ?_
    split
    · rfl
    · rw [if_neg fun h => hact h.2.2]

/-- Settles O15: ENABLE in the state of a powered part. -/
theorem enablePowersTheChannel : Obligations.EnablePowersTheChannel := by
  intro c s hheld hoff hchk hpre hpresent
  have hnone : refusalOf s.dev c .enable = none := by simp [refusalOf, firstHolding, hoff, hpre, hpresent]
  have hexec : exec (.enable c) s = .next { s with dev := powerUp c (accept 0x01 .accepted c s.dev) } := by
    rw [show exec (.enable c) s = _ from exec_channelRow_running .enable c hheld]
    exact congrArg (fun d => Host.Outcome.next { s with dev := d }) (cmdEnable_eq.trans (unlessRefused_none hnone))
  have hchan : ∀ b, (accept 0x01 .accepted c s.dev).chan b =
      if b = c then { s.dev.chan c with ctl := { s.dev.ctl c with lastCommand := 0x01, lastStatus := .accepted } }
      else s.dev.chan b := fun b => by rw [accept_eq, modCtl_chan]
  have hstate : ∀ b, ((accept 0x01 .accepted c s.dev).ctl b).state = (s.dev.ctl b).state := fun b => by
    rw [Device.ctl_chan, hchan]; split
    · next hb => rw [hb]
    · rfl
  have hoff' : ((accept 0x01 .accepted c s.dev).chan c).chk.state = .off := by rw [hchan, if_pos rfl]; exact hchk
  refine ⟨_, hexec, rfl, ?_, ?_, fun b hb => ?_⟩
  · rw [powerUp_eq hoff']; rfl
  · rw [powerUp_eq hoff', mapChans_chan, if_pos rfl, hchan, if_pos rfl]
    simp only [poweredUp, chkLeaveOff, heardOnceUp, hstate]
    rfl
  · rw [powerUp_eq hoff', mapChans_chan, if_neg hb, hchan, if_neg hb]
    simp only [accept_eq, modCtl_time, modCtl_lanes, hpresent, true_and]

/-! ### The end of a reset -/

/-- The offsets of the channel page that do not read 0 after a reset. -/
def pageResetOffsets : List Nat := [0x0110, 0x0112, 0x0114, 0x0122, 0x0124, 0x0126, 0x012C, 0x0134, 0x0138, 0x014C]

theorem resetRead_zero {p r : Bool} {ma : BitVec 2} {o : Nat} (h : o ∉ pageResetOffsets) (hlow : 0x00C0 ≤ o) :
    resetRead p ma r o = 0 := by
  simp only [pageResetOffsets, List.mem_cons, List.not_mem_nil, or_false, not_or] at h
  unfold resetRead
  simp only [h, if_false]
  iterate 10 rw [if_neg (by omega)]

theorem chanRead_default_zero {o : Nat} (h : o ∉ pageResetOffsets) : chanRead Channel.default o = 0 := by
  unfold chanRead
  split
  any_goals rfl
  all_goals exact absurd (by decide) h

theorem chanRead_default (p r : Bool) (ma : BitVec 2) {o : Nat} (hlow : 0x0100 ≤ o) :
    chanRead Channel.default o = BitVec.ofNat 16 (resetRead p ma r o) := by
  by_cases h : o ∈ pageResetOffsets
  · simp only [pageResetOffsets, List.mem_cons, List.not_mem_nil, or_false] at h
    rcases h with rfl | rfl | rfl | rfl | rfl | rfl | rfl | rfl | rfl | rfl <;> rfl
  · rw [chanRead_default_zero h, resetRead_zero h (by omega)]; rfl

theorem resetRead_group (p r : Bool) (ma : BitVec 2) {o : Nat} (hlow : 0x0080 ≤ o) (hhigh : o < 0x00C0) :
    resetRead p ma r o = if o % 16 = 2 then 8 else if o % 16 = 10 then 50 else 0 := by
  unfold resetRead
  iterate 8 rw [if_neg (by omega)]
  by_cases h2 : o % 16 = 2
  · rw [if_pos ⟨hlow, hhigh, h2⟩, if_pos h2]
  · rw [if_neg (by omega), if_neg h2]
    by_cases h10 : o % 16 = 10
    · rw [if_pos ⟨hlow, hhigh, h10⟩, if_pos h10]
    · iterate 12 rw [if_neg (by omega)]

theorem groupRead_default (p r : Bool) (ma : BitVec 2) {o : Nat} (hlow : 0x0080 ≤ o) (hhigh : o < 0x00C0) :
    groupRead Group.default (o % 16) = BitVec.ofNat 16 (resetRead p ma r o) := by
  rw [resetRead_group p r ma hlow hhigh]
  have hm : o % 16 < 16 := Nat.mod_lt _ (by decide)
  generalize o % 16 = m at hm
  interval_cases m <;> rfl

/-- The part right after the end of a reset, before the accesses that waited are served. -/
def outOfReset (p : Bool) (ma : BitVec 2) (r : Bool) (d : Device) : Device :=
  let d1 := Device.afterReset p ma r d.lanes.activity d.ram d.epoch d.free
  if p then beginPreload d1 else d1

theorem endOfReset_held {p r : Bool} {ma : BitVec 2} {d : Device} (h : d.held = true) :
    endOfReset p ma r d = d.host.waiting.foldl (fun d a => serveAccess a d) (outOfReset p ma r d) := by
  rw [endOfReset, if_pos h]; rfl

theorem endOfReset_waiting {p r : Bool} {ma : BitVec 2} {d : Device} (h : d.held = true) (w : List Access) :
    endOfReset p ma r { d with host := { d.host with waiting := w } } = w.foldl (fun d a => serveAccess a d) (outOfReset p ma r d) := by
  rw [endOfReset, if_pos h]; rfl

theorem outOfReset_eq (p r : Bool) (ma : BitVec 2) (d : Device) :
    outOfReset p ma r d = { Device.afterReset p ma r d.lanes.activity d.ram d.epoch d.free with
      preload := (outOfReset p ma r d).preload } := by
  unfold outOfReset; cases p <;> rfl

theorem outOfReset_chan (p r : Bool) (ma : BitVec 2) (d : Device) (c : Chan) : (outOfReset p ma r d).chan c = Channel.default := by
  rw [outOfReset_eq]; exact Eight.get_build _ c

theorem outOfReset_group (p r : Bool) (ma : BitVec 2) (d : Device) (g : Grp) : (outOfReset p ma r d).group g = Group.default := by
  rw [outOfReset_eq]; exact Four.get_build _ g

theorem summaryWord_outOfReset (p r : Bool) (ma : BitVec 2) (d : Device) : summaryWord (outOfReset p ma r d) = 0 := by
  rw [outOfReset_eq]
  simp [summaryWord, chanSummary, devSummary, Device.afterReset, Eight.build, Channel.default]

/-- The device registers and the sources, offset by offset. -/
theorem deviceRead_outOfReset (p r : Bool) (ma : BitVec 2) (d : Device) {o : Nat} (hhigh : o < 0x0080) :
    deviceRead (outOfReset p ma r d) o = BitVec.ofNat 16 (resetRead p ma r o) := by
  have hid : (outOfReset p ma r d).preload.imageId = 0 := by cases p <;> rfl
  by_cases hsum : o = 0x0018
  · subst hsum; exact summaryWord_outOfReset p r ma d
  · by_cases hlow : o = 0x0060
    · subst hlow; simp [deviceRead, hid, part, word, resetRead]
    · by_cases hhi : o = 0x0062
      · subst hhi; simp [deviceRead, hid, part, word, resetRead]
      · by_cases hstatus : o = 0x0004
        · subst hstatus; cases p <;> cases r <;> rfl
        · interval_cases o
          any_goals contradiction
          all_goals cases p <;> rfl

/-- Every offset of the window right after a reset (R6, R8, R21, R27, R45, R93, R109, R112, R115, R132, R159, R167). -/
theorem busRead_outOfReset (p r : Bool) (ma : BitVec 2) (d : Device) (o : Nat) :
    busRead (outOfReset p ma r d) o =
      if 0x0400 ≤ o ∧ o < 0x1800 then ramWord d o else BitVec.ofNat 16 (resetRead p ma r o) := by
  have hselected : lowestSelected (outOfReset p ma r d) = some 0 := by
    rw [outOfReset_eq]; exact (by decide : allChans.find? (inMask 1) = some 0)
  have hram : ramWord (outOfReset p ma r d) o = ramWord d o := by rw [outOfReset_eq]; rfl
  have hzero : (o < 0x0100 ∧ 0x00C0 ≤ o) ∨ 0x0200 ≤ o → 0 = BitVec.ofNat 16 (resetRead p ma r o) := fun h => by
    rw [resetRead_zero (by simp only [pageResetOffsets, List.mem_cons, List.not_mem_nil, or_false]; omega) (by omega)]; rfl
  unfold busRead
  by_cases hdev : o < 0x0080
  · rw [if_pos hdev, if_neg (by omega), deviceRead_outOfReset p r ma d hdev]
  · rw [if_neg hdev]
    by_cases hgroup : 0x0080 ≤ o ∧ o < 0x00C0
    · rw [dif_pos hgroup, outOfReset_group, if_neg (by omega), groupRead_default p r ma hgroup.1 hgroup.2]
    · rw [dif_neg hgroup]
      by_cases hgap : o < 0x0100
      · rw [if_pos hgap, if_neg (by omega), hzero (by omega)]
      · rw [if_neg hgap]
        by_cases hpage : o < 0x0200
        · rw [if_pos hpage, if_neg (by omega), pageRead, hselected, ← chanRead_default p r ma (by omega)]
          exact congrArg (fun k => chanRead k o) (outOfReset_chan p r ma d 0)
        · rw [if_neg hpage]
          by_cases hlow : o < 0x0400
          · rw [if_pos hlow, if_neg (by omega), hzero (by omega)]
          · rw [if_neg hlow]
            by_cases hhigh : o < 0x1800
            · rw [if_pos hhigh, if_pos (by omega), hram]
            · rw [if_neg hhigh, if_neg (by omega), hzero (by omega)]

theorem outOfReset_held (p r : Bool) (ma : BitVec 2) (d : Device) : (outOfReset p ma r d).held = false := by
  rw [outOfReset_eq]; rfl

/-- Serving the accesses that waited leaves the part out of reset. -/
theorem serveAll_held (l : List Access) (d : Device) : (l.foldl (fun d a => serveAccess a d) d).held = d.held :=
  ((Keeps.refl everywhere d).foldl l fun _ _ h => h.serveAccess).held

/-- Settles O12: the reset values, and the accesses that waited on them. -/
theorem endOfResetLeavesResetValues : Obligations.EndOfResetLeavesResetValues := by
  intro p ma r s
  refine ⟨fun hheld => ?_, fun hheld hnone => ?_, fun hheld w a v u hu => ?_⟩
  · change s.act (endOfReset p ma r) = _
    rw [State.act_eq, endOfReset, if_neg (by simp [hheld])]
  · have hexec : exec (.endOfReset p ma r) s = .next { s with dev := outOfReset p ma r s.dev } := by
      change s.act (endOfReset p ma r) = _
      rw [State.act_eq, endOfReset_held hheld, hnone]; rfl
    refine ⟨_, hexec, rfl, outOfReset_held p r ma _, ?_, ?_, ?_, busRead_outOfReset p r ma _, outOfReset_chan p r ma _,
      outOfReset_group p r ma _, ?_, ?_, ?_, ?_, ?_, ?_⟩
    all_goals cases p <;> rfl
  · cases hu
    have hout : (endOfReset p ma r { s.dev with host := { s.dev.host with waiting := w } }).held = false := by
      rw [endOfReset_waiting hheld, serveAll_held]; exact outOfReset_held p r ma _
    refine ⟨hout, ?_⟩
    rw [exec_registerWrite_running a v hout]
    change Host.Outcome.next { s with
      dev := endOfReset p ma r { s.dev with host := { s.dev.host with waiting := w ++ [Access.write (2 * a.toNat) v] } } } = _
    rw [endOfReset_waiting hheld, endOfReset_waiting hheld, List.foldl_append]
    rfl

end Sys2Proof.Machine
end

section
/-! STOP and ABORT of a solo channel, by what it is at (R13, R63, R64, R68, R105, R106). -/

namespace Sys2Proof.Machine

-- One theorem after another: a thread for each would take the memory a check allows.
set_option Elab.async false

open Sys2Proof

variable {c : Chan} {d : Device}

theorem next_dev {s : State} {x y : Device} (h : x = y) :
    (Host.Outcome.next { s with dev := x } : Host.Outcome State Fault Refusal) = .next { s with dev := y } := by rw [h]

/-! ### Ending writes and endings -/

/-- An ending write reaches the fill position and the Overrun Count of its channel's controller alone. -/
theorem endingWrite_ctl_self (c : Chan) (r : Record) (d : Device) :
    ∃ p n, (endingWrite c r d).ctl c = { d.ctl c with fillPosition := p, overrun := n } := by
  rw [endingWrite_form, takeTurn_ctl]
  split
  · exact ⟨_, _, modChan_ctl_self c _ d⟩
  · exact ⟨_, _, modChan_ctl_self c _ d⟩

theorem endingWrite_prior (c : Chan) (r : Record) (d : Device) : ((endingWrite c r d).ctl c).prior = (d.ctl c).prior := by
  obtain ⟨p, n, h⟩ := endingWrite_ctl_self c r d
  rw [h]

/-- The point under way of a solo sweep, folded as measured and not usable (R54, R55). -/
theorem foldUnderWay_eq (c : Chan) (d : Device) :
    foldUnderWay c d = modCtl c (fun k => { k with selection := selectionAtEnd k }) d := by
  have hsame : selectionAtEnd (d.ctl c) = (d.ctl c).selection →
      d = modCtl c (fun k => { k with selection := selectionAtEnd k }) d := fun h => by
    rw [modCtl, modChan_congr (g := fun k => k), modChan_same]
    rw [Device.ctl_eq] at h; rw [h]
  unfold foldUnderWay
  dsimp only
  cases hu : (d.ctl c).task.underWay with
  | none => exact hsame (by unfold selectionAtEnd; rw [hu]; cases (d.ctl c).origin <;> rfl)
  | some x =>
    obtain ⟨p, b⟩ := x
    by_cases ho : (d.ctl c).origin = .sweep
    · simp only [ho, if_true]
      refine modChan_congr ?_
      rw [Device.ctl_eq] at hu ho
      simp only [selectionAtEnd, hu, ho]
    · simp only [ho, if_false]
      refine hsame ?_
      unfold selectionAtEnd
      rw [hu]
      cases h : (d.ctl c).origin with
      | sweep => exact absurd h ho
      | _ => rfl

theorem sweepUnderWay_eq (k : Controller) : sweepUnderWay k = sweepBegun k := rfl

theorem sweepBegun_iff (k : Controller) : sweepBegun k = true ↔ k.origin = .sweep ∧ k.task.inCheck = false := by
  simp [sweepBegun]

/-- A point under way has no record that waits. -/
theorem pendingRecord_of_underWay {t : Task} {x : Copy × Bool} (h : t.underWay = some x) : t.pendingRecord = none := by
  cases t <;> cases h <;> rfl

/-- The summary of an ending of solo work, made of the part with the point under way folded. -/
theorem endingSummary_eq (h : sweepBegun (d.ctl c) = true) (o : SweepOutcome) (cause : HaltCause) (at_ : BitVec 16) :
    [endingSummary (foldUnderWay c d) c o cause at_] = endingSummaryOf (d.chan c) o cause at_ := by
  rw [Device.ctl_eq, sweepBegun_iff] at h
  unfold endingSummaryOf
  rw [if_pos h, foldUnderWay_eq]
  unfold endingSummary soloSummary
  simp only [modCtl_ctl_self]
  simp only [Device.ctl_eq]
  cases (d.chan c).ctl.task.pendingRecord with
  | none => rfl
  | some r => cases r <;> rfl

/-- Everything the end of solo work does: the point under way folded, its records, and its close. -/
theorem soloEnd_eq (waits : Bool) (pt : Option Record) (o : SweepOutcome) (cause : HaltCause) (at_ : BitVec 16) (k : Closing)
    (c : Chan) (d : Device) :
    soloEnd waits pt o cause at_ k c d =
      endsWith waits c (pt.toList ++ endingSummaryOf (d.chan c) o cause at_) k (sweepUnderWay (d.ctl c))
        (modCtl c (fun k => { k with selection := selectionAtEnd k }) d) := by
  unfold soloEnd
  dsimp only
  rw [endWith_eq, sweepUnderWay_eq]
  cases hb : sweepBegun (d.ctl c) with
  | true =>
    rw [← endingSummary_eq hb, foldUnderWay_eq]; rfl
  | false =>
    have hno : endingSummaryOf (d.chan c) o cause at_ = [] := by
      unfold endingSummaryOf
      rw [if_neg]
      rw [Device.ctl_eq] at hb
      simpa [sweepBegun] using hb
    rw [hno, foldUnderWay_eq]; rfl

/-- An ending that no waiting host write cuts makes all its records. -/
theorem endsWith_unwaited (c : Chan) (rs : List Record) (k : Closing) (swept : Bool) (d : Device) :
    endsWith false c rs k swept d = closedBy k swept c (writeAll c rs d) := rfl

/-- The end of solo work by ABORT, DISABLE or RESET_CHANNEL. -/
theorem abortSweep_eq (c : Chan) (d : Device) :
    abortSweep c d =
      closedBy .abort (sweepUnderWay (d.ctl c)) c
        (writeAll c (endingPointOf (d.chan c) .aborted d.time.ms
            ++ endingSummaryOf (d.chan c) .aborted .none (d.time.ms.setWidth 16))
          (modCtl c (fun k => { k with selection := selectionAtEnd k }) d)) := by
  unfold abortSweep
  rw [soloEnd_eq, endsWith_unwaited, endingPoint_eq]; rfl

theorem closedBy_abort_swept (c : Chan) (d : Device) : closedBy .abort true c d = raise c .sweepEnd (toRest c .idle d) :=
  (closeWith_eq .abort true c d).symm

/-- What an accepted command leaves for the work it does: its channel as it was, but for the two command registers. -/
theorem accept_ctl_self (code : BitVec 8) (st : LastStatus) (c : Chan) (d : Device) :
    (accept code st c d).ctl c = { d.ctl c with lastCommand := code, lastStatus := st } := modCtl_ctl_self c _ d

theorem accept_endingPoint (code : BitVec 8) (st : LastStatus) (c : Chan) (d : Device) :
    endingPointOf ((accept code st c d).chan c) .aborted (accept code st c d).time.ms
      = endingPointOf (d.chan c) .aborted d.time.ms := by
  rw [accept_eq, modCtl_chan_self]; rfl

/-! ### STOP -/

theorem atFirstWalk_iff (k : Controller) :
    atFirstWalk k = true ↔ k.current = none ∧ ∃ w, k.window = some w ∧ k.task = .walk w.first := by
  unfold atFirstWalk
  cases k.task <;> cases k.window <;> simp [and_comm]

/-- STOP of a solo sweep, by its conditions in order. -/
theorem stopSweep_eq (code : BitVec 8) (st : LastStatus) (c : Chan) (d : Device) :
    stopSweep c (accept code st c d) =
      if (d.ctl c).task.inCheck then abandonCheck .idle c (accept code st c d)
      else if (d.ctl c).origin = .single ∨ (d.ctl c).task.inEnding = true then accept code st c d
      else if atFirstWalk (d.ctl c) then sweepCloses c (modCtl c (fun k => { k with stopping := true }) (accept code st c d))
      else modCtl c (fun k => { k with stopping := true }) (accept code st c d) := by
  unfold stopSweep
  simp only [accept_ctl_self, sweepEnding_eq]
  rfl

/-- Settles O23: `stopSweep` and `stopTrack`, by the channel's task. -/
theorem stopBySoloPhase : Obligations.StopBySoloPhase := by
  intro c s hheld hmsg hsolo
  have hexec : exec (.stop c) s = .next { s with dev := cmdStop c s.dev } := by
    rw [show exec (.stop c) s = _ from exec_channelRow_running .stop c hheld, takeCommand_stop hmsg]
  have hsweep (hs : (s.dev.ctl c).state = .sweep) :
      exec (.stop c) s = .next { s with dev := stopSweep c (accept 0x07 .accepted c s.dev) } := by
    rw [hexec]; unfold cmdStop; simp only [hs, hsolo]
  dsimp only
  refine ⟨fun hs ⟨p, hp⟩ => ?_, fun hs ⟨ho, hc, w, hw, ht⟩ => ?_, fun hs hin hun => ?_, fun hs => ?_⟩
  · rw [hsweep hs, stopSweep_eq, if_pos (by rw [hp]; rfl)]
    rfl
  · rw [hsweep hs, stopSweep_eq, if_neg (by rw [ht]; exact Bool.false_ne_true),
      if_neg (by simp [ht, ho, Task.inEnding, Task.pendingRecord]), if_pos ((atFirstWalk_iff _).2 ⟨hc, w, hw, ht⟩), accept_eq]
  · rw [hsweep hs, stopSweep_eq, if_neg (by simp [hin])]
    by_cases hends : (s.dev.ctl c).origin = .single ∨ (s.dev.ctl c).task.inEnding = true
    · rw [if_pos hends, if_pos hends, accept_eq]
    · have hnot : ¬ atFirstWalk (s.dev.ctl c) = true := fun h => hun ⟨fun ho => hends (.inl ho), (atFirstWalk_iff _).1 h⟩
      rw [if_neg hends, if_neg hends, if_neg hnot, accept_eq]
  · have htrack : cmdStop c s.dev = stopTrack c (accept 0x07 .accepted c s.dev) := by
      unfold cmdStop; simp only [hs]
    rw [hexec, htrack]
    unfold stopTrack
    simp only [accept_ctl_self]
    cases (s.dev.ctl c).task <;> rfl

/-! ### ABORT -/

theorem exec_abort_solo {s : State} (hheld : s.dev.held = false) (hmsg : (s.dev.ctl c).message = none)
    (hsolo : runningGroup s.dev c = none) (hs : (s.dev.ctl c).state = .sweep) :
    exec (.abort c) s = .next { s with dev := (
      if (s.dev.ctl c).task.inCheck then abandonCheck .idle c (accept 0x08 .accepted c s.dev)
      else if (s.dev.ctl c).origin = .single then abortSingle c (accept 0x08 .accepted c s.dev)
      else abortSweep c (accept 0x08 .accepted c s.dev)) } := by
  rw [show exec (.abort c) s = _ from exec_channelRow_running .abort c hheld, takeCommand_abort hmsg]
  unfold cmdAbort
  simp only [hs, hsolo]
  unfold abortSolo
  simp only [accept_ctl_self]

/-- The end of a solo sweep past its check by ABORT: its records, and SWEEP_END. -/
theorem abortSweep_accepted (ho : (d.ctl c).origin = .sweep) (hin : (d.ctl c).task.inCheck = false) :
    abortSweep c (accept 0x08 .accepted c d) =
      raise c .sweepEnd (toRest c .idle
        (writeAll c (endingPointOf (d.chan c) .aborted d.time.ms
            ++ endingSummaryOf (d.chan c) .aborted .none (d.time.ms.setWidth 16))
          (modCtl c (fun k => { k with selection := selectionAtEnd (d.ctl c) }) (accept 0x08 .accepted c d)))) := by
  have hswept : sweepUnderWay ((accept 0x08 .accepted c d).ctl c) = true := by
    rw [accept_ctl_self, sweepUnderWay_eq, sweepBegun_iff]; exact ⟨ho, hin⟩
  have hfold : modCtl c (fun k => { k with selection := selectionAtEnd k }) (accept 0x08 .accepted c d)
      = modCtl c (fun k => { k with selection := selectionAtEnd (d.ctl c) }) (accept 0x08 .accepted c d) :=
    modChan_congr (by rw [← Device.ctl_eq, accept_ctl_self]; rfl)
  have hsummary : endingSummaryOf ((accept 0x08 .accepted c d).chan c) .aborted .none (d.time.ms.setWidth 16)
      = endingSummaryOf (d.chan c) .aborted .none (d.time.ms.setWidth 16) := by
    rw [accept_eq, modCtl_chan_self]; rfl
  rw [abortSweep_eq, hswept, closedBy_abort_swept, accept_endingPoint, hfold]
  exact congrArg (fun rs => raise c .sweepEnd (toRest c .idle (writeAll c (_ ++ rs) _))) hsummary

/-- Settles O24: `abortSolo` of a check and of a sweep past it. -/
theorem abortEndsTheSweep : Obligations.AbortEndsTheSweep := by
  refine ⟨fun c s hheld hmsg hsolo hs hin => ?_, fun c s hheld hmsg hsolo hs ho hg hin => ?_⟩
  · rw [exec_abort_solo hheld hmsg hsolo hs, if_pos hin]
    simp only [abandonCheck, showAbandoned, toRest_eq, accept_eq, modCtl, modChan_modChan]
  · rw [exec_abort_solo hheld hmsg hsolo hs, if_neg (by simp [hin]), if_neg (by simp [ho]), abortSweep_accepted ho hin]
    generalize s.dev = d at *
    have hsame (h : selectionAtEnd (d.ctl c) = (d.ctl c).selection) :
        modCtl c (fun k => { k with selection := selectionAtEnd (d.ctl c) }) (accept 0x08 .accepted c d)
          = accept 0x08 .accepted c d := by
      rw [h, accept_eq]
      simp only [modCtl, modChan_modChan]
      exact modChan_congr rfl
    rw [Device.ctl_eq] at ho hin
    cases hu : (d.chan c).ctl.task.underWay with
    | some x =>
      obtain ⟨p, counted⟩ := x
      have hp := pendingRecord_of_underWay hu
      simp [endingPointOf, endingSummaryOf, selectionAtEnd, Device.ctl_eq, hu, hp, ho, hin, writeAll, accept_eq]
    | none =>
      rw [hsame (by simp [selectionAtEnd, Device.ctl_eq, hu, ho])]
      cases hp : (d.chan c).ctl.task.pendingRecord with
      | none => simp [endingPointOf, endingSummaryOf, selectionAtEnd, hu, hp, ho, hin, writeAll, accept_eq]
      | some r =>
        cases r <;>
          simp [endingPointOf, endingSummaryOf, selectionAtEnd, hu, hp, ho, hin, writeAll, accept_eq]

/-- Settles O25: `abortTrack` and `abortSingle`, by the channel's task. -/
theorem abortOfSingleReturns : Obligations.AbortOfSingleReturns := by
  refine ⟨fun c s hheld hmsg hs => ?_, fun c s hheld hmsg hsolo hs ho hin => ?_⟩
  · have htrack : exec (.abort c) s = .next { s with dev := abortTrack c (accept 0x08 .accepted c s.dev) } := by
      rw [show exec (.abort c) s = _ from exec_channelRow_running .abort c hheld, takeCommand_abort hmsg]
      unfold cmdAbort; simp only [hs]
    rw [htrack]
    unfold abortTrack
    simp only [endingWriteOpt_eq, endingPoint_eq, accept_endingPoint, accept_ctl_self, enterApplied_eq]
    refine next_dev ?_
    rw [← Device.ctl_eq s.dev]
    cases (s.dev.ctl c).task with
    | record r a => cases a <;> rfl
    | stall r a => cases a <;> rfl
    | _ => rfl
  · rw [exec_abort_solo hheld hmsg hsolo hs, if_neg (by simp [hin]), if_pos ho]
    have hback (e : Device) (he : (e.ctl c).prior = (s.dev.ctl c).prior) :
        afterSingle c e =
          match (s.dev.ctl c).prior.bind (fun q => q.applied) with
          | none => toRest c .idle e
          | some i =>
            modChan c (fun k => { k with ctl := { k.ctl with task := .singleReturn i, timer := none }, chk := chkClose k.chk }) e := by
      unfold afterSingle
      rw [he]
      cases (s.dev.ctl c).prior with
      | none => rfl
      | some q => cases q.applied <;> rfl
    have hprior : ((accept 0x08 .accepted c s.dev).ctl c).prior = (s.dev.ctl c).prior := by rw [accept_ctl_self]
    unfold abortSingle
    simp only [endingWriteOpt_eq, endingPoint_eq, accept_endingPoint, accept_ctl_self]
    refine next_dev ?_
    unfold endingPointOf
    rw [← Device.ctl_eq s.dev]
    cases ht : (s.dev.ctl c).task with
    | singleReturn i => rfl
    | settle p | lockwait p | dwell p =>
      refine Eq.trans ?_ (hback _ ((endingWrite_prior _ _ _).trans hprior))
      exact congrArg (fun rs => afterSingle c (writeAll c rs _)) (if_neg fun h => by rw [ho] at h; cases h.1)
    | record r a =>
      cases r with
      | summary y => exact hback _ hprior
      | point x | move x => exact hback _ ((endingWrite_prior _ _ _).trans hprior)
    | stall r a =>
      cases r with
      | summary y => exact hback _ hprior
      | point x | move x => exact hback _ ((endingWrite_prior _ _ _).trans hprior)
    | _ => exact hback _ hprior

end Sys2Proof.Machine
end

section
/-! Host writes of registers: those dropped during a preload, those that store their bits and those that are ignored (R133, R135,
R142, R147, R176). -/

namespace Sys2Proof.Machine

-- One theorem after another: a thread for each would take the memory a check allows.
set_option Elab.async false

open Sys2Proof

/-! ### The gates of a write -/

theorem act_hostAccess_running {a : Access} {f : Device → Device} {s : State} (h : s.dev.held = false) :
    s.act (hostAccess a f) = .next { s with dev := f s.dev } := by
  rw [State.act_eq, hostAccess_running h]

section Gates
variable {d : Device} {offset : Nat}

theorem unlessPreload_idle {f : Device → Device} (h : preloadActive d = false) : unlessPreload offset f d = f d := by
  simp [unlessPreload, h]

theorem unlessPreload_active {f : Device → Device} (h : preloadActive d = true) : unlessPreload offset f d = dropWrite offset d := by
  simp [unlessPreload, h]

theorem pageWrite_selected {f : Chan → Device → Device} (h : d.host.pageMask ≠ 0) :
    pageWrite offset f d = forMask d.host.pageMask f d := if_neg h

theorem pageConfigWrite_selected {f : Chan → Device → Device} (h : d.host.pageMask ≠ 0) (hp : preloadActive d = false) :
    pageConfigWrite offset f d = forMask d.host.pageMask f d := by
  rw [pageConfigWrite, if_neg h, unlessPreload_idle hp]

theorem pageConfigWrite_dropped {f : Chan → Device → Device} (h : d.host.pageMask ≠ 0) (hp : preloadActive d = true) :
    pageConfigWrite offset f d = dropWrite offset d := by
  rw [pageConfigWrite, if_neg h, unlessPreload_active hp]

/-- A change of one channel, made at every channel that the Page Mask selects. -/
theorem forMask_selected (f : Channel → Channel) (d : Device) :
    forMask d.host.pageMask (fun c => modChan c f) d = mapSelected f d := forMask_modChan d.host.pageMask (fun _ => f) d

end Gates

/-! ### Writes dropped during a preload (R176) -/

theorem keptBits_page {o : Nat} {m : BusWord} (h : keptBits o = some m) : 0x0100 ≤ o ∧ o < 0x0200 := by
  unfold keptBits at h
  split at h
  any_goals omega
  cases h

theorem dropWrite_eq (o : Nat) (d : Device) :
    dropWrite o d =
      let e := withBadWrite .preload o d
      { e with preload := { e.preload with dropped := if e.preload.dropped = 65535 then 65535 else e.preload.dropped + 1 } } := rfl

section Dropped
variable {d : Device} {o : Nat} (hp : preloadActive d = true) (ho : droppedInPreload o = true) (v : BusWord)
include hp

theorem deviceWriteAt_dropped (he : o % 2 = 0) (h : o = 0x0012 ∨ (0x0020 ≤ o ∧ o < 0x0050)) :
    deviceWriteAt o v d = dropWrite o d := by
  obtain rfl | hrange := h
  · show refDividerWrite v d = _
    exact unlessPreload_active hp
  unfold deviceWriteAt
  split
  any_goals omega
  · split_ifs with h1 h2 h3
    · exact unlessPreload_active hp
    · refine (unlessPreload_active hp).trans (congrArg (fun n => dropWrite n d) ?_); simp only; omega
    · refine (unlessPreload_active hp).trans (congrArg (fun n => dropWrite n d) ?_); simp only; omega
    · omega

theorem groupWriteAt_dropped {part : Nat} (g : Grp) (h : part = 0 ∨ part = 2 ∨ part = 10) :
    groupWriteAt g part v d = dropWrite (groupOffset g part) d := by
  rcases h with rfl | rfl | rfl
  · show membersWrite g v d = _
    exact unlessPreload_active hp
  · show leadWrite g v d = _
    exact unlessPreload_active hp
  · exact unlessPreload_active hp

theorem pageWriteAt_dropped (hmask : d.host.pageMask ≠ 0) (h : (cfgRegAt o).isSome = true ∨ o = 0x0120) :
    pageWriteAt o v d = dropWrite o d := by
  unfold pageWriteAt
  cases hc : cfgRegAt o with
  | some r => exact pageConfigWrite_dropped hmask hp
  | none =>
    obtain hsome | rfl := h
    · rw [hc] at hsome; cases hsome
    · exact pageConfigWrite_dropped hmask hp

theorem ringWriteAt_dropped (hlow : 0x0800 ≤ o) (hhigh : o < 0x1800) : ringWriteAt o v d = dropWrite o d := by
  unfold ringWriteAt
  dsimp only
  split
  · next h =>
    refine (unlessPreload_active hp).trans (congrArg (fun n => dropWrite n d) ?_)
    unfold ringAddr
    simp only
    omega
  · exact unlessPreload_active hp

end Dropped

/-- The destinations in the channel page whose writes are dropped during a preload are the configuration registers and the Overrun
Count. -/
theorem droppedInPreload_page (n : Fin 128) (h : droppedInPreload (0x0100 + 2 * n.val) = true) :
    (cfgRegAt (0x0100 + 2 * n.val)).isSome = true ∨ 0x0100 + 2 * n.val = 0x0120 := by
  revert n; decide

/-- Settles O30: every destination's write goes through the gate that a preload closes. -/
theorem writesDroppedDuringPreload : Obligations.WritesDroppedDuringPreload := by
  intro a v s hheld hp ho hmask
  rw [exec_registerWrite_running a v hheld]
  refine next_dev (Eq.trans ?_ (dropWrite_eq _ _))
  have he : 2 * a.toNat % 2 = 0 := by omega
  generalize 2 * a.toNat = o at *
  have hkept : (keptBits o).isSome = true → 0x0100 ≤ o ∧ o < 0x0200 := fun h => by
    obtain ⟨m, hm⟩ := Option.isSome_iff_exists.1 h
    exact keptBits_page hm
  have hcases : o = 0x0012 ∨ (0x0020 ≤ o ∧ o < 0x0050)
      ∨ (0x0080 ≤ o ∧ o < 0x00C0 ∧ (o % 16 = 0 ∨ o % 16 = 2 ∨ o % 16 = 10)) ∨ (0x0100 ≤ o ∧ o < 0x0200)
      ∨ 0x0400 ≤ o ∧ o < 0x1800 := by
    have h := ho
    simp only [droppedInPreload, Bool.or_eq_true, Bool.and_eq_true, decide_eq_true_eq, beq_iff_eq] at h
    rcases h with ((((((h | h) | h) | h) | h) | h) | h) | h
    any_goals omega
    exact .inr (.inr (.inr (.inl (hkept h))))
  unfold writeAt
  split_ifs with h1 h2 h3 h4 h5 h6 h7
  · exact deviceWriteAt_dropped hp v he (by omega)
  · rw [groupWriteAt_dropped hp v _ (by omega)]
    refine congrArg (fun n => dropWrite n s.dev) ?_
    simp only [groupOffset]
    omega
  · omega
  · have hn := droppedInPreload_page ⟨(o - 0x0100) / 2, by omega⟩
    simp only [show 0x0100 + 2 * ((o - 0x0100) / 2) = o by omega] at hn
    exact pageWriteAt_dropped hp v (hmask (by omega) h4) (hn ho)
  · omega
  · exact unlessPreload_active hp
  · exact ringWriteAt_dropped hp v (by omega) h7
  · omega

/-! ### Writes that store their bits and do nothing else -/

/-- What a channel's plain configuration registers show. -/
def plainWord (x : ChanConfig) (invert : Bool) (offset : Nat) : BusWord :=
  match offset with
  | 0x010E => word x.winFirst.val
  | 0x0110 => word x.winLast.val
  | 0x0112 => x.sweep.settleTime
  | 0x0114 => x.sweep.lockTimeout.setWidth 16
  | 0x0116 => x.sweep.policy.setWidth 16
  | 0x0118 => x.sweep.passLimit
  | 0x011A => word (flag x.sweep.autoTrack)
  | 0x011C => word (flag (x.ringPolicy = .drop))
  | 0x0122 => x.sweep.track.interval
  | 0x0124 => x.sweep.track.lookAhead.setWidth 16
  | 0x0126 => x.sweep.track.stepLimit.setWidth 16
  | 0x0128 => word x.sweep.track.dwellClass.val
  | 0x012A => x.sweep.track.hysteresis.setWidth 16
  | 0x012C => x.sweep.track.failLimit.setWidth 16
  | 0x012E => word (flag (x.sweep.track.recordMode = .moves))
  | 0x0136 => word (flag invert)
  | _ => 0

/-- The configuration that a write of a plain configuration register leaves. -/
def plainConfig (offset : Nat) (v : BusWord) (x : ChanConfig) : ChanConfig :=
  match offset with
  | 0x010E => { x with winFirst := idxOf v.toNat }
  | 0x0110 => { x with winLast := idxOf v.toNat }
  | 0x0112 => { x with sweep := { x.sweep with settleTime := v } }
  | 0x0114 => { x with sweep := { x.sweep with lockTimeout := v.setWidth 8 } }
  | 0x0116 => { x with sweep := { x.sweep with policy := v.setWidth 2 } }
  | 0x0118 => { x with sweep := { x.sweep with passLimit := v } }
  | 0x011A => { x with sweep := { x.sweep with autoTrack := v.getLsbD 0 } }
  | 0x011C => { x with ringPolicy := if v.getLsbD 0 then .drop else .stall }
  | 0x0122 => { x with sweep := { x.sweep with track := { x.sweep.track with interval := v } } }
  | 0x0124 => { x with sweep := { x.sweep with track := { x.sweep.track with lookAhead := v.setWidth 2 } } }
  | 0x0126 => { x with sweep := { x.sweep with track := { x.sweep.track with stepLimit := v.setWidth 4 } } }
  | 0x0128 => { x with sweep := { x.sweep with track := { x.sweep.track with dwellClass := low3 v } } }
  | 0x012A => { x with sweep := { x.sweep with track := { x.sweep.track with hysteresis := v.setWidth 8 } } }
  | 0x012C => { x with sweep := { x.sweep with track := { x.sweep.track with failLimit := v.setWidth 4 } } }
  | 0x012E =>
    { x with sweep := { x.sweep with track := { x.sweep.track with recordMode := if v.getLsbD 0 then .moves else .all } } }
  | _ => x

/-- The Generator Invert that a write of a plain configuration register leaves. -/
def plainInvert (offset : Nat) (v : BusWord) (invert : Bool) : Bool := if offset = 0x0136 then v.getLsbD 0 else invert

/-- A channel with other contents of its plain configuration registers. -/
def withPlain (x : ChanConfig) (invert : Bool) (k : Channel) : Channel := { k with config := x, gen := { k.gen with invert := invert } }

/-- A channel after a write of a plain configuration register. -/
def plainStored (offset : Nat) (v : BusWord) (k : Channel) : Channel :=
  withPlain (plainConfig offset v k.config) (plainInvert offset v k.gen.invert) k

theorem chanRead_plain {o : Nat} {m : BusWord} (h : keptBits o = some m) (k : Channel) :
    chanRead k o = plainWord k.config k.gen.invert o := by
  unfold keptBits at h
  split at h
  any_goals rfl
  cases h

theorem chanRead_withPlain {o : Nat} (h : keptBits o = none) (x : ChanConfig) (invert : Bool) (k : Channel) :
    chanRead (withPlain x invert k) o = chanRead k o := by
  unfold chanRead
  split
  any_goals rfl
  all_goals cases h

theorem writeAt_plain {o : Nat} {m : BusWord} (h : keptBits o = some m) (v : BusWord) :
    writeAt o v = pageConfigWrite o fun c => modChan c (plainStored o v) := by
  unfold keptBits at h
  split at h
  any_goals rfl
  cases h

theorem toNat_and_low (n : Nat) (hn : n ≤ 16) (v : BusWord) : (v &&& BitVec.ofNat 16 (2 ^ n - 1)).toNat = v.toNat % 2 ^ n := by
  have hle : 2 ^ n ≤ 2 ^ 16 := Nat.pow_le_pow_right (by decide) hn
  rw [BitVec.toNat_and, BitVec.toNat_ofNat, Nat.mod_eq_of_lt (by have := Nat.two_pow_pos n; omega), Nat.and_two_pow_sub_one_eq_mod]

theorem setWidth_low (n : Nat) (hn : n ≤ 16) (v : BusWord) : (v.setWidth n).setWidth 16 = v &&& BitVec.ofNat 16 (2 ^ n - 1) := by
  refine BitVec.eq_of_toNat_eq ?_
  have hle : 2 ^ n ≤ 2 ^ 16 := Nat.pow_le_pow_right (by decide) hn
  have hlt : v.toNat % 2 ^ n < 2 ^ n := Nat.mod_lt _ (Nat.two_pow_pos n)
  rw [toNat_and_low n hn, BitVec.toNat_setWidth, BitVec.toNat_setWidth, Nat.mod_eq_of_lt (by omega)]

theorem word_low (n : Nat) (hn : n ≤ 16) (v : BusWord) : word (v.toNat % 2 ^ n) = v &&& BitVec.ofNat 16 (2 ^ n - 1) := by
  refine BitVec.eq_of_toNat_eq ?_
  have hle : 2 ^ n ≤ 2 ^ 16 := Nat.pow_le_pow_right (by decide) hn
  have hlt : v.toNat % 2 ^ n < 2 ^ n := Nat.mod_lt _ (Nat.two_pow_pos n)
  rw [toNat_and_low n hn, word, BitVec.toNat_ofNat, Nat.mod_eq_of_lt (by omega)]

theorem flag_low (v : BusWord) : word (flag (v.getLsbD 0)) = v &&& 1 := by
  rw [show v &&& 1 = _ from (word_low 1 (by decide) v).symm]
  congr 1
  rw [BitVec.getLsbD, Nat.testBit_zero]
  unfold flag
  rcases Nat.mod_two_eq_zero_or_one v.toNat with h | h <;> simp [h]

/-- A written plain register reads back the bits that its rule keeps. -/
theorem plainWord_stored_self {o : Nat} {m : BusWord} (h : keptBits o = some m) (v : BusWord) (x : ChanConfig) (invert : Bool) :
    plainWord (plainConfig o v x) (plainInvert o v invert) o = v &&& m := by
  unfold keptBits at h
  split at h <;> cases h
  · exact word_low 7 (by decide) v
  · exact word_low 7 (by decide) v
  · exact BitVec.and_allOnes.symm
  · exact setWidth_low 8 (by decide) v
  · exact setWidth_low 2 (by decide) v
  · exact BitVec.and_allOnes.symm
  · exact flag_low v
  · refine Eq.trans (congrArg (fun b => word (flag b)) ?_) (flag_low v)
    show decide ((if v.getLsbD 0 then RingPolicy.drop else .stall) = .drop) = v.getLsbD 0
    cases v.getLsbD 0 <;> rfl
  · exact BitVec.and_allOnes.symm
  · exact setWidth_low 2 (by decide) v
  · exact setWidth_low 4 (by decide) v
  · exact word_low 3 (by decide) v
  · exact setWidth_low 8 (by decide) v
  · exact setWidth_low 4 (by decide) v
  · refine Eq.trans (congrArg (fun b => word (flag b)) ?_) (flag_low v)
    show decide ((if v.getLsbD 0 then RecordMode.moves else .all) = .moves) = v.getLsbD 0
    cases v.getLsbD 0 <;> rfl
  · exact flag_low v

theorem plainWord_stored_ne {o p : Nat} (h : p ≠ o) (v : BusWord) (x : ChanConfig) (invert : Bool) :
    plainWord (plainConfig o v x) (plainInvert o v invert) p = plainWord x invert p := by
  unfold plainConfig
  split
  all_goals
    unfold plainWord
    split
  any_goals rfl
  any_goals contradiction
  all_goals exact congrArg (fun b => word (flag b)) (if_neg h.symm)

theorem ignoredOffset_page (n : Fin 128) (h : ignoredOffset (0x0100 + 2 * n.val) = true) :
    pageWriteAt (0x0100 + 2 * n.val) = fun _ => pageWrite (0x0100 + 2 * n.val) fun _ d => d := by
  fin_cases n
  any_goals rfl
  all_goals cases h

theorem deviceWriteAt_ignored {o : Nat} (hlow : o < 0x0080) (h : ignoredOffset o = true) (v : BusWord) (d : Device) :
    deviceWriteAt o v d = d := by
  have hcases : o ≠ 6 ∧ o ≠ 8 ∧ o ≠ 10 ∧ o ≠ 18 ∧ o ≠ 26 ∧ o ≠ 28 ∧ ¬ (0x0020 ≤ o ∧ o < 0x0050) := by
    revert h
    decide +revert
  obtain ⟨h6, h8, h10, h18, h26, h28, hrange⟩ := hcases
  unfold deviceWriteAt
  split
  any_goals contradiction
  rw [dif_neg (by omega), dif_neg (by omega), dif_neg (by omega)]

theorem groupWriteAt_ignored {part : Nat} (h : part ≠ 0 ∧ part ≠ 2 ∧ part ≠ 10) (g : Grp) (v : BusWord) (d : Device) :
    groupWriteAt g part v d = d := by
  obtain ⟨h0, h2, h10⟩ := h
  unfold groupWriteAt
  split
  any_goals contradiction
  rfl

theorem ignoredOffset_group {o : Nat} (hhigh : o < 0x00C0) (hlow : 0x0080 ≤ o) (h : ignoredOffset o = true) :
    o % 16 ≠ 0 ∧ o % 16 ≠ 2 ∧ o % 16 ≠ 10 := by
  simp only [ignoredOffset, Bool.or_eq_true, Bool.and_eq_true, decide_eq_true_eq, bne_iff_ne, List.contains_iff_mem, List.mem_cons,
    List.not_mem_nil, or_false] at h
  omega

/-- No offset of the shared RAM is an ignored one. -/
theorem ignoredOffset_high {o : Nat} (h : ignoredOffset o = true) : o < 0x0400 ∨ 0x1800 ≤ o := by
  simp only [ignoredOffset, Bool.or_eq_true, Bool.and_eq_true, decide_eq_true_eq, bne_iff_ne, List.contains_iff_mem, List.mem_cons,
    List.not_mem_nil, or_false] at h
  omega

/-- A write of a read-only or unlisted offset is ignored (R133, R147). -/
theorem writeAt_ignored {o : Nat} (he : o % 2 = 0) (h : ignoredOffset o = true) (v : BusWord) {d : Device}
    (hmask : 0x0100 ≤ o → o < 0x0200 → d.host.pageMask ≠ 0) : writeAt o v d = d := by
  unfold writeAt
  by_cases h1 : o < 0x0080
  · rw [if_pos h1, deviceWriteAt_ignored h1 h]
  · rw [if_neg h1]
    by_cases h2 : 0x0080 ≤ o ∧ o < 0x00C0
    · rw [dif_pos h2, groupWriteAt_ignored (ignoredOffset_group h2.2 h2.1 h)]
    · rw [dif_neg h2]
      by_cases h3 : o < 0x0100
      · rw [if_pos h3]
      · rw [if_neg h3]
        by_cases h4 : o < 0x0200
        · have hpage := ignoredOffset_page ⟨(o - 0x0100) / 2, by omega⟩
          simp only [show 0x0100 + 2 * ((o - 0x0100) / 2) = o by omega] at hpage
          rw [if_pos h4, hpage h]
          show pageWrite _ _ _ = _
          rw [pageWrite_selected (hmask (by omega) h4), forMask_eq_filter]
          exact List.foldl_fixed _
        · rw [if_neg h4]
          by_cases h5 : o < 0x0400
          · rw [if_pos h5]
          · have hout := ignoredOffset_high h
            rw [if_neg h5, if_neg (by omega), if_neg (by omega)]

/-- Settles O31: the plain registers by `plainStored`, the others at their offsets. -/
theorem registerWritesStoreTheirBits : Obligations.RegisterWritesStoreTheirBits := by
  intro a v s hheld
  rw [exec_registerWrite_running a v hheld]
  have he : 2 * a.toNat % 2 = 0 := by omega
  generalize 2 * a.toNat = o at *
  refine ⟨fun m hm hmask hidle => ?_, fun ho => by subst ho; rfl, fun ho => by subst ho; rfl, fun ho hmask => ?_, fun k ho hidle => ?_,
    fun g ho hidle => ?_, fun ho hmask => by rw [writeAt_ignored he ho v hmask]⟩
  · have hstored : writeAt o v s.dev = mapSelected (plainStored o v) s.dev := by
      rw [writeAt_plain hm, pageConfigWrite_selected hmask hidle, forMask_selected]
    rw [hstored]
    refine ⟨_, rfl, rfl, rfl, fun c => ⟨fun hc => ?_, fun hc => ?_⟩⟩
    · rw [mapSelected, mapChans_chan, if_neg (by simp [hc])]
    · rw [mapSelected, mapChans_chan, if_pos hc]
      refine ⟨fun p => ?_, rfl⟩
      cases hp : keptBits p with
      | none =>
        have hne : p ≠ o := fun h => by rw [h, hm] at hp; cases hp
        rw [if_neg hne]
        exact chanRead_withPlain hp _ _ _
      | some m' =>
        rw [chanRead_plain hp, chanRead_plain hp]
        by_cases hpo : p = o
        · subst hpo
          rw [if_pos rfl]
          exact plainWord_stored_self hm v _ _
        · rw [if_neg hpo]
          exact plainWord_stored_ne hpo v _ _
  · subst ho
    show Host.Outcome.next { s with dev := pageWrite 0x0102 (argumentAt v) s.dev } = _
    rw [pageWrite_selected hmask]
    exact next_dev (forMask_selected (fun k => { k with ctl := { k.ctl with command := v } }) s.dev)
  · rw [ho, writeAt_dwell, unlessPreload_idle hidle]; rfl
  · have hg : o = groupOffset g 0xA := by rw [ho]; unfold groupOffset; omega
    have hzero : v.setWidth 8 = (0 : BitVec 8) ↔ v.toNat % 256 = 0 := by
      rw [← BitVec.toNat_inj, BitVec.toNat_setWidth]; rfl
    rw [hg, writeAt_barrierTimeout, unlessPreload_idle hidle, storeBarrierTimeout]
    simp only [hzero]

end Sys2Proof.Machine
end

section
/-! Host writes with effects of their own: the event sets, the device commands, the groups' registers, the sources, the generators and
the checkers (R26 to R30, R109, R112, R116, R117, R142 to R146, R151 to R156). -/

namespace Sys2Proof.Machine

-- One theorem after another: a thread for each would take the memory a check allows.
set_option Elab.async false

open Sys2Proof

/-! ### Events and IRQ# -/

/-- Clears of the event sets of several channels, one after another: each takes some of the raises that wait for its set. -/
theorem foldl_eventClearAt (v : BusWord) {l : List Chan} (hl : l.Nodup) (d : Device) :
    ∃ (n : Chan → Nat) (f : Nat), l.foldl (fun d c => eventClearAt v c d) d
      = { mapChans (fun c k => if c ∈ l then clearAfter (n c) v k else k) d with free := f } := by
  induction l generalizing d with
  | nil => exact ⟨fun _ => 0, d.free, by rw [mapChans_congr (g := fun _ k => k) (fun c => by simp), mapChans_same]; rfl⟩
  | cons b l ih =>
    obtain ⟨hb, hl⟩ := List.nodup_cons.1 hl
    obtain ⟨n, f, h⟩ := ih hl (eventClearAt v b d)
    refine ⟨fun c => if c = b then Config.raisesTaken d.free else n c, f, ?_⟩
    rw [List.foldl_cons, h, eventClearAt, modChan_eq_mapChans, mapChans_mapChans]
    refine congrArg (fun t : Device => { t with free := f }) (mapChans_congr (d := { d with free := d.free + 1 }) fun c => ?_)
    by_cases hc : c = b
    · subst hc; simp only [hb, List.mem_cons, or_false, if_true, if_false]; rfl
    · simp only [hc, List.mem_cons, false_or, if_false]; rfl

/-- A word of the Channel Summary is zero where none of its nine parts is set. -/
theorem summaryWord_eq_zero (d : Device) : summaryWord d = 0 ↔ (∀ c, chanSummary (d.chan c) = false) ∧ devSummary d = false := by
  have hpart (b : Bool) (n : Nat) (hn : 0 < n) : (if b then n else 0) ≤ n ∧ ((if b then n else 0) = 0 ↔ b = false) := by
    cases b
    · simp
    · simp; omega
  have h0 := hpart (chanSummary d.chans.c0) 1 (by decide)
  have h1 := hpart (chanSummary d.chans.c1) 2 (by decide)
  have h2 := hpart (chanSummary d.chans.c2) 4 (by decide)
  have h3 := hpart (chanSummary d.chans.c3) 8 (by decide)
  have h4 := hpart (chanSummary d.chans.c4) 16 (by decide)
  have h5 := hpart (chanSummary d.chans.c5) 32 (by decide)
  have h6 := hpart (chanSummary d.chans.c6) 64 (by decide)
  have h7 := hpart (chanSummary d.chans.c7) 128 (by decide)
  have h8 := hpart (devSummary d) 256 (by decide)
  have hall : (∀ c, chanSummary (d.chan c) = false) ↔ chanSummary d.chans.c0 = false ∧ chanSummary d.chans.c1 = false
      ∧ chanSummary d.chans.c2 = false ∧ chanSummary d.chans.c3 = false ∧ chanSummary d.chans.c4 = false
      ∧ chanSummary d.chans.c5 = false ∧ chanSummary d.chans.c6 = false ∧ chanSummary d.chans.c7 = false := by
    simp only [Fin.forall_fin_succ, IsEmpty.forall_iff, and_true]; rfl
  rw [hall, ← h0.2, ← h1.2, ← h2.2, ← h3.2, ← h4.2, ← h5.2, ← h6.2, ← h7.2, ← h8.2, summaryWord, ← BitVec.toNat_inj,
    BitVec.toNat_ofNat]
  obtain ⟨h0, _⟩ := h0
  obtain ⟨h1, _⟩ := h1
  obtain ⟨h2, _⟩ := h2
  obtain ⟨h3, _⟩ := h3
  obtain ⟨h4, _⟩ := h4
  obtain ⟨h5, _⟩ := h5
  obtain ⟨h6, _⟩ := h6
  obtain ⟨h7, _⟩ := h7
  obtain ⟨h8, _⟩ := h8
  show _ % 65536 = 0 ↔ _
  omega

/-- Two sets have an event in common, by its bit. -/
theorem and_ne_zero_iff {w : Nat} (x y : BitVec w) : (x &&& y) ≠ 0 ↔ ∃ n : Nat, x.getLsbD n = true ∧ y.getLsbD n = true := by
  constructor
  · intro h
    by_contra hno
    refine h (BitVec.eq_of_getLsbD_eq fun i hi => ?_)
    have hi' := not_exists.1 hno i
    simp only [BitVec.getLsbD_and]
    rw [show (0 : BitVec w).getLsbD i = false from BitVec.getLsbD_zero]
    rw [Bool.and_eq_false_iff]
    by_contra h'
    exact hi' (by simpa using h')
  · rintro ⟨n, hx, hy⟩ h
    have := congrArg (fun z : BitVec w => z.getLsbD n) h
    simp only [BitVec.getLsbD_and, hx, hy, Bool.and_self] at this
    rw [show (0 : BitVec w).getLsbD n = false from BitVec.getLsbD_zero] at this
    cases this

theorem irqLow_iff (d : Device) : irqLow d = true ↔
    (∃ (c : Chan) (n : Nat), (d.chan c).events.getLsbD n = true ∧ (d.chan c).enables.getLsbD n = true)
      ∨ ∃ n : Nat, d.events.getLsbD n = true ∧ d.enables.getLsbD n = true := by
  rw [irqLow, bne_iff_ne, ne_eq, summaryWord_eq_zero, not_and_or, not_forall]
  refine or_congr (exists_congr fun c => ?_) ?_
  · rw [← and_ne_zero_iff, Bool.not_eq_false, chanSummary, bne_iff_ne]
  · rw [← and_ne_zero_iff, Bool.not_eq_false, devSummary, bne_iff_ne]

/-- Settles O33: each write at its registers, and the Channel Summary by its parts. -/
theorem eventWritesAndTheInterruptLine : Obligations.EventWritesAndTheInterruptLine := by
  refine ⟨fun v s hheld => ⟨fun hmask => ⟨?_, ?_⟩, ?_, ?_, fun hmask hidle => ?_⟩, irqLow_iff⟩
  · obtain ⟨n, f, h⟩ := foldl_eventClearAt v (List.Nodup.filter (inMask s.dev.host.pageMask) (by decide : allChans.Nodup)) s.dev
    refine ⟨n, f, (act_hostAccess_running hheld).trans (next_dev ?_)⟩
    rw [pageWrite_selected hmask, forMask_eq_filter, h]
    refine congrArg (fun t : Device => { t with free := f }) (mapChans_congr fun c => ?_)
    have hall : c ∈ allChans := by revert c; decide
    simp only [List.mem_filter, hall, true_and]
    exact if_congr Iff.rfl (clearAfter_eq _ _ _) rfl
  · refine (act_hostAccess_running hheld).trans (next_dev ?_)
    rw [pageWrite_selected hmask]
    exact forMask_selected (fun k => { k with enables := v.setWidth 14 }) s.dev
  · exact ⟨_, act_hostAccess_running hheld⟩
  · exact act_hostAccess_running hheld
  · refine (act_hostAccess_running hheld).trans (next_dev ?_)
    rw [pageConfigWrite_selected hmask hidle]
    exact forMask_selected (fun k => { k with ctl := { k.ctl with overrun := 0 } }) s.dev

/-! ### Device commands -/

theorem allQuiet_iff (d : Device) : allQuiet d = true ↔ ∀ c, (d.ctl c).state = .off ∨ (d.ctl c).state = .idle := by
  have hall : ∀ c : Chan, c ∈ allChans := by decide
  simp only [allQuiet, List.all_eq_true, Bool.or_eq_true, decide_eq_true_eq, hall, true_imp_iff]

/-- Settles O35: each device command by its condition. -/
theorem deviceCommandsTakenOrRefused : Obligations.DeviceCommandsTakenOrRefused := by
  intro s hheld
  have hready : (allQuiet s.dev && !preloadActive s.dev) = true ↔
      preloadActive s.dev = false ∧ ∀ c, (s.dev.ctl c).state = .off ∨ (s.dev.ctl c).state = .idle := by
    rw [Bool.and_eq_true, allQuiet_iff, Bool.not_eq_true', and_comm]
  have hpreload : exec .preload s = .next { s with dev := cmdPreload s.dev } := act_hostAccess_running hheld
  have habort : exec .abortPreload s = .next { s with dev := cmdAbortPreload s.dev } := act_hostAccess_running hheld
  refine ⟨fun h => ?_, fun h => ?_, fun h => ?_, fun h => ?_, fun v => ?_⟩
  · rw [hpreload, cmdPreload, if_pos (hready.2 h)]; rfl
  · rw [hpreload, cmdPreload, if_neg (mt hready.1 h)]; rfl
  · rw [habort, cmdAbortPreload, if_pos h]; rfl
  · rw [habort, cmdAbortPreload, if_neg (by simp [h])]; rfl
  · have hwrite : exec (.registerWrite 0x004 v) s = .next { s with dev := deviceCommandWrite v s.dev } :=
      act_hostAccess_running hheld
    have hsnapshot : exec .snapshot s = .next { s with dev := cmdSnapshot s.dev } := act_hostAccess_running hheld
    refine ⟨fun h => ?_, fun h => ?_, fun h => ?_, fun h => ?_⟩
    · have hno : codeNat v = 0 ∨ 3 < codeNat v := by
        simp only [namesDeviceCommand, Bool.and_eq_false_iff, decide_eq_false_iff_not] at h; omega
      refine (act_hostAccess_running hheld).trans (next_dev ?_)
      unfold deviceCommandWrite
      rw [codeOf_toNat]
      split
      any_goals omega
      rfl
    · rw [hwrite, hsnapshot]; unfold deviceCommandWrite; rw [codeOf_toNat, h]; rfl
    · rw [hwrite, hpreload]; unfold deviceCommandWrite; rw [codeOf_toNat, h]; rfl
    · rw [hwrite, habort]; unfold deviceCommandWrite; rw [codeOf_toNat, h]; rfl

/-! ### Groups -/

theorem membersAllowed_iff (d : Device) (g : Grp) (m : BitVec 8) :
    membersAllowed d g m = true ↔
      (d.group g).state = .idle ∧ ∀ h, h ≠ g → ∀ c, inMask (d.group h).members c = true → inMask m c = false := by
  have hall : ∀ h : Grp, h ∈ allGroups := by decide
  have hapart (x : BitVec 8) : x &&& m = 0 ↔ ∀ c, inMask x c = true → inMask m c = false := by
    have hne := and_ne_zero_iff x m
    rw [← not_iff_not]
    refine hne.trans ⟨fun ⟨n, hx, hm⟩ h => ?_, fun h => ?_⟩
    · have hn : n < 8 := BitVec.lt_of_getLsbD hx
      have := h ⟨n, hn⟩ hx
      rw [inMask, hm] at this
      cases this
    · simp only [not_forall, Bool.not_eq_false] at h
      obtain ⟨c, hx, hm⟩ := h
      exact ⟨c.val, hx, hm⟩
  simp only [membersAllowed, Bool.and_eq_true, decide_eq_true_eq, List.all_eq_true, hall, true_imp_iff, Bool.or_eq_true, beq_iff_eq]
  refine and_congr Iff.rfl (forall_congr' fun h => ?_)
  rw [hapart]
  by_cases hg : h = g <;> simp [hg]

/-- Settles O36: the gates of the two writes are the membership rules. -/
theorem membersAndLeadWrites : Obligations.MembersAndLeadWrites := by
  intro g v s hheld hidle
  have hmembers : exec (.membersWrite g v) s = .next { s with dev := (
      if membersAllowed s.dev g (v.setWidth 8) then storeMembers g (v.setWidth 8) s.dev
      else withBadWrite .groupRule (0x0080 + 0x10 * g.val) s.dev) } :=
    (act_hostAccess_running hheld).trans (next_dev (unlessPreload_idle hidle))
  have hlead : exec (.leadWrite g v) s = .next { s with dev := (
      if (s.dev.group g).state = .idle ∧ leadAllowed (s.dev.group g).members (leadOf v.toNat) = true then
        storeLead g (leadOf v.toNat) s.dev
      else withBadWrite .groupRule (0x0082 + 0x10 * g.val) s.dev) } := by
    refine (act_hostAccess_running hheld).trans (next_dev ((unlessPreload_idle hidle).trans ?_))
    have ho : groupOffset g 2 = 0x0082 + 0x10 * g.val := by unfold groupOffset; omega
    rw [ho]; rfl
  have hled : leadAllowed (s.dev.group g).members (leadOf v.toNat) = true ↔
      8 ≤ v.toNat % 16 ∨ (s.dev.group g).members.getLsbD (v.toNat % 16) = true := by
    unfold leadOf
    by_cases hv : v.toNat % 16 < 8
    · rw [dif_pos hv]
      simp only [leadAllowed, inMask, show ¬ 8 ≤ v.toNat % 16 by omega, false_or]
    · rw [dif_neg hv]
      simp only [leadAllowed, show 8 ≤ v.toNat % 16 by omega, true_or]
  refine ⟨fun h => ?_, fun h => ?_, fun h => ?_, fun h => ?_⟩
  · rw [hmembers, if_pos ((membersAllowed_iff _ _ _).2 h)]; rfl
  · rw [hmembers, if_neg (mt (membersAllowed_iff _ _ _).1 h)]
  · rw [hlead, if_pos ⟨h.1, hled.2 h.2⟩]; rfl
  · rw [hlead, if_neg fun h' => h ⟨h'.1, hled.1 h'.2⟩]

/-! ### Sources -/

/-- Settles O37: a changed source raises ROUTE_CHANGED, and a changed Checker Source breaks the checker's stream. -/
theorem sourceWrites : Obligations.SourceWrites := by
  intro c v s hheld hidle
  have htx : exec (.txSourceWrite c v) s = .next { s with dev := storeTxSource c v s.dev } :=
    (act_hostAccess_running hheld).trans (next_dev (unlessPreload_idle hidle))
  have hchecker : exec (.checkerSourceWrite c v) s = .next { s with dev := storeCheckerSource c v s.dev } :=
    (act_hostAccess_running hheld).trans (next_dev (unlessPreload_idle hidle))
  refine ⟨?_, fun h => ?_, fun h => ?_⟩
  · rw [htx]
    refine next_dev ?_
    show storeTxSource c v s.dev = if s.dev.lanes.txSource.get c = txSourceOf v.toNat then _ else _
    unfold storeTxSource raiseIf
    by_cases h : s.dev.lanes.txSource.get c = txSourceOf v.toNat
    · rw [if_neg (by simp [h]), if_pos h]; rfl
    · rw [if_pos (by simp [h]), if_neg h]; rfl
  · rw [hchecker, storeCheckerSource, if_pos (show _ = low3 v from h)]
  · rw [hchecker, storeCheckerSource, if_neg (show ¬ _ = low3 v from h)]
    refine next_dev ?_
    simp only [atChecker_eq, raise, modChan_modChan, stepAt_break]
    rfl

/-! ### Generators and checkers -/

/-- A channel whose User Length or User Words have been written: in USER its generator's position returns to 0, and in USER its checker
searches afresh (R21, R26, R30, R35). -/
def userWritten (f : Generator → Generator) (k : Channel) : Channel :=
  let k1 : Channel := { k with gen := if (f k.gen).mode = .user then { f k.gen with position := 0 } else f k.gen }
  if k.chk.mode = .user then restartSearch k1 else k1

theorem userRestart_eq (g : Generator) : userRestart g = if g.mode = .user then { g with position := 0 } else g := by
  unfold userRestart
  cases h : g.mode <;> simp

/-- What a user register holds once it has been written. -/
def userStored (r : UserReg) (v : BusWord) (g : Generator) : Generator :=
  match r with
  | .length => { g with userLength := userLengthOf v.toNat }
  | .word q high => { g with userWords := g.userWords.set q (setHalf (g.userWords.get q) high v) }

theorem storeUser_eq (r : UserReg) (v : BusWord) (c : Chan) (d : Device) :
    storeUser r v c d = modChan c (userWritten (userStored r v)) d := by
  have hstep : storeUser r v c d =
      let d1 := modChan c (fun k => { k with gen := userRestart (userStored r v k.gen) }) d
      if (d.chan c).chk.mode = .user then modChan c restartSearch d1 else d1 := by
    cases r <;> simp only [storeUser, atChecker_eq, funext stepAt_restart] <;> rfl
  rw [hstep]
  dsimp only
  simp only [userRestart_eq, modChan_modChan]
  by_cases h : (d.chan c).chk.mode = .user
  · rw [if_pos h]
    exact modChan_congr (by simp only [userWritten, if_pos h])
  · rw [if_neg h]
    exact modChan_congr (by simp only [userWritten, if_neg h])

theorem userLengthOf_word (v : BusWord) :
    userLengthOf v.toNat = if v = 0 then 1 else if 4 < v.toNat then 4 else v.setWidth 3 := by
  have hzero : v.toNat = 0 ↔ v = 0 := by rw [← BitVec.toNat_inj]; rfl
  unfold userLengthOf
  simp only [hzero]
  rfl

theorem setHalf_eq (w : LaneWord) (high : Bool) (v : BusWord) :
    setHalf w high v = if high then v ++ w.extractLsb' 0 16 else w.extractLsb' 16 16 ++ v := by
  cases high <;> rfl

/-- A channel whose Checker Mode has been written (R28, R30): its checker enters OFF, leaves it by the report `heard`, or searches
afresh. -/
def modeWritten (mode : CheckerMode) (heard : Bool) (k : Channel) : Channel :=
  let k1 : Channel := { k with chk := { k.chk with mode := mode } }
  if k.ctl.state = .off then k1 else stepAt (chkModeWritten heard) k1

/-- The write of the Checker Mode at one channel of a part whose lanes and channel states are those of `d0`. -/
theorem storeChecker_mode {d0 d : Device} (h : SameLanes d0 d) (v : BusWord) (c : Chan) :
    storeChecker .mode v c d = modChan c (modeWritten (checkerModeOf (v.toNat % 4)) (sourceReport d0 c)) d := by
  have hreport (f : Channel → Channel) (hf : ∀ k, (f k).ctl.state = k.ctl.state) :
      sourceReport (modChan c f d) c = sourceReport d0 c := by
    obtain ⟨hlanes, _, hstates⟩ := h.modChan c f hf
    simp only [sourceReport, laneReport, hlanes, hstates]
  simp only [storeChecker]
  rw [hreport (fun k => { k with chk := { k.chk with mode := checkerModeOf (v.toNat % 4) } }) fun _ => rfl, Device.ctl_eq]
  by_cases hoff : (d.chan c).ctl.state = .off
  · rw [if_pos hoff]
    exact modChan_congr (by simp only [modeWritten, if_pos hoff])
  · rw [if_neg hoff, atChecker_eq, modChan_modChan]
    exact modChan_congr (by simp only [modeWritten, if_neg hoff])

theorem modeWritten_state (mode : CheckerMode) (heard : Bool) (k : Channel) : (modeWritten mode heard k).ctl.state = k.ctl.state := by
  unfold modeWritten
  dsimp only
  split
  · rfl
  · rw [stepAt_state]

theorem lfsrOf_eq (n : Nat) : lfsrOf n = if n = 0 then .l7 else if n = 1 then .l15 else if n = 2 then .l23 else .l31 := by
  match n with
  | 0 | 1 | 2 => rfl
  | n + 3 => rfl

theorem checkerModeOf_eq (n : Nat) :
    checkerModeOf n = if n = 0 then .auto else if n = 1 then .fixed else if n = 2 then .user else .off := by
  match n with
  | 0 | 1 | 2 => rfl
  | n + 3 => rfl

/-- The write of the Checker Mode, by the mode written and the state of the checker it meets. -/
theorem modeWritten_eq (mode : CheckerMode) (heard : Bool) (k : Channel) :
    modeWritten mode heard k =
      let k1 : Channel := { k with chk := { k.chk with mode := mode } }
      if k.ctl.state = .off then k1
      else if mode ≠ .off then
        if k.chk.state ≠ .off then restartSearch k1
        else if heard then
          { k1 with chk := { k1.chk with state := .search, previous := none, counts := Eight.build fun _ => 0 } }
        else { k1 with chk := { k1.chk with state := .nosignal } }
      else
        match k.chk.state with
        | .off => k1
        | .locked =>
          { k1 with
            chk := chkEnterOff k1.chk, raised := k.raised ++ [.unlock],
            ctl := { k.ctl with inbox := k.ctl.inbox ++ [.lockLost] } }
        | _ => { k1 with chk := chkEnterOff k1.chk } := by
  unfold modeWritten
  dsimp only
  split
  · rfl
  · by_cases hm : mode = .off
    · subst hm
      cases k.chk.state <;> simp [stepAt, chkModeWritten, chkModeOff, chanRaiseAll, chkStay]
    · rw [if_pos hm]
      by_cases hs : k.chk.state = .off
      · rw [if_neg (not_not.2 hs)]
        cases heard <;> simp [stepAt, chkModeWritten, chkLeaveOff, chkFresh, hs, hm, chanRaiseAll]
      · rw [if_pos hs, ← stepAt_restart]
        simp [stepAt, chkModeWritten, hs, hm]

/-- Settles O38: each register's store at every selected channel. -/
theorem patternRegisterWrites : Obligations.PatternRegisterWrites := by
  intro v s hheld hmask hidle
  have hpage {a : Access} {o : Nat} {f : Chan → Device → Device} {g : Channel → Channel}
      (hf : ∀ c d, f c d = modChan c g d) :
      s.act (hostAccess a (pageConfigWrite o f)) = .next { s with dev := mapSelected g s.dev } := by
    rw [act_hostAccess_running hheld, pageConfigWrite_selected hmask hidle, show f = fun c => modChan c g from
      funext fun c => funext (hf c), forMask_selected]
  refine ⟨?_, ?_, fun q high => ?_, ?_, ?_, ?_⟩
  · refine hpage fun c d => modChan_congr ?_
    match v.toNat with
    | 0 | 1 | 2 | 3 | 4 | 5 => rfl
    | n + 6 => rfl
  · refine hpage fun c d => (storeUser_eq _ v c d).trans (modChan_congr ?_)
    simp only [userWritten, userStored, userLengthOf_word]
  · refine hpage fun c d => (storeUser_eq _ v c d).trans (modChan_congr ?_)
    simp only [userWritten, userStored, setHalf_eq]
  · refine hpage fun c d => ?_
    simp only [storeChecker, atChecker_eq, modChan_modChan, stepAt_restart]
    rw [lfsrOf_eq]
  · refine hpage fun c d => ?_
    simp only [storeChecker, atChecker_eq, modChan_modChan, stepAt_restart]
  · refine (act_hostAccess_running hheld).trans (next_dev ?_)
    rw [pageConfigWrite_selected hmask hidle]
    refine (forMask_inv (SameLanes s.dev) _ _ (fun c => modeWritten (checkerModeOf (v.toNat % 4)) (sourceReport s.dev c))
      (fun c d h _ => storeChecker_mode h v c) (fun c d h _ => h.modChan c _ (modeWritten_state _ _)) s.dev
      ⟨rfl, rfl, fun _ => rfl⟩).trans (mapChans_congr fun c => ?_)
    have hheard : sourceReport s.dev c = (s.dev.lanes.activity.get (s.dev.lanes.checkerSource.get c)
        && (s.dev.ctl (s.dev.lanes.checkerSource.get c)).state != .off) := by
      unfold sourceReport laneReport
      rw [Bool.and_comm]
      cases (s.dev.ctl (s.dev.lanes.checkerSource.get c)).state <;> rfl
    rw [checkerModeOf_eq, hheard]
    cases inMask s.dev.host.pageMask c with
    | false => rfl
    | true => exact modeWritten_eq _ _ _

end Sys2Proof.Machine
end

section
/-! Host writes of the shared RAM, the handbacks they hand, and the ending that stands between its two fills (R1, R75, R77, R83, R84,
R86, R180). -/

namespace Sys2Proof.Machine

-- One theorem after another: a thread for each would take the memory a check allows.
set_option Elab.async false

open Sys2Proof

/-! ### An ending that goes on -/

theorem goOnEnding_elsewhere {c : Chan} {d : Device} (h : ∀ e, d.ending = some e → e.chan ≠ c) : goOnEnding c d = d := by
  unfold goOnEnding
  cases he : d.ending with
  | none => rfl
  | some e => exact if_neg (h e he)

theorem goOnEnding_here {d : Device} {e : Ending} (h : d.ending = some e) :
    goOnEnding e.chan d = closedBy e.closing true e.chan (endingWrite e.chan e.summary { d with ending := none }) := by
  unfold goOnEnding
  rw [h]
  exact (if_pos rfl).trans (closeWith_eq _ _ _ _)

/-- The bytes after a word has been stored, the low byte's offset first. -/
theorem ramByte_writeWord_low (a : Nat) (v : BusWord) (d : Device) (b : Nat) :
    ramByte (writeWord a v d) b =
      if b = a then v.setWidth 8 else if b = a + 1 then v.extractLsb' 8 8 else ramByte d b := by
  rw [ramByte_writeWord]
  by_cases h : b = a
  · rw [if_pos h, if_neg (by omega), if_pos h]
  · rw [if_neg h, if_neg h]

/-! ### Handbacks -/

/-- A ring's control word is stored, and handed as a handback at the fill position. -/
def handedBack (c : Chan) (p : RingPos) (d : Device) : Device :=
  if (d.ctl c).fillPosition = p then modCtl c (fun k => { k with handbacks := k.handbacks + 1 }) d else d

theorem handedBack_ram (c : Chan) (p : RingPos) (d : Device) : (handedBack c p d).ram = d.ram := by
  unfold handedBack; split <;> rfl

theorem handedBack_ending (c : Chan) (p : RingPos) (d : Device) : (handedBack c p d).ending = d.ending := by
  unfold handedBack; split <;> rfl

theorem handedBack_epoch (c : Chan) (p : RingPos) (d : Device) : (handedBack c p d).epoch = d.epoch := by
  unfold handedBack; split <;> rfl

theorem handedBack_withRam (c : Chan) (p : RingPos) (d : Device) (m : List Host.Cell) :
    { handedBack c p d with ram := m } = handedBack c p { d with ram := m } := by
  unfold handedBack Device.ctl
  dsimp only
  split <;> rfl

theorem handedBack_withEnding (c : Chan) (p : RingPos) (d : Device) (e : Option Ending) :
    { handedBack c p d with ending := e } = handedBack c p { d with ending := e } := by
  unfold handedBack Device.ctl
  dsimp only
  split <;> rfl

theorem ramByte_handedBack (c : Chan) (p : RingPos) (d : Device) (b : Nat) : ramByte (handedBack c p d) b = ramByte d b := by
  simp only [ramByte, handedBack_ram, handedBack_epoch]

section Writes
variable {s : State} (hheld : s.dev.held = false) (hidle : preloadActive s.dev = false)
include hheld hidle

theorem exec_ringBodyWordWrite (c : Chan) (p : RingPos) (w : Fin 15) (v : BusWord) :
    exec (.ringBodyWordWrite c p w v) s
      = .next { s with dev := goOnEnding c (writeWord (ringAddr c p + 2 * (w.val + 1)) v s.dev) } :=
  (act_hostAccess_running hheld).trans (next_dev (unlessPreload_idle hidle))

theorem exec_ringControlWordWrite (c : Chan) (p : RingPos) (v : BusWord) :
    exec (.ringControlWordWrite c p v) s
      = .next { s with dev := goOnEnding c (handedBack c p (writeWord (ringAddr c p) v s.dev)) } :=
  (act_hostAccess_running hheld).trans (next_dev (unlessPreload_idle hidle))

end Writes

/-- Settles O32: the stores, the ending that a write of its ring lets go on, and the handback by the channel's task. -/
theorem ramWritesAndHandbacks : Obligations.RamWritesAndHandbacks := by
  intro s hheld
  refine ⟨fun hidle => ⟨fun i w v => ?_, fun c p hno => ⟨fun w v => ?_, fun v => ?_⟩, fun e p he => ⟨fun w v => ?_, fun v => ?_⟩⟩,
    fun c => ⟨fun h => ?_, fun h hphase => ?_, fun r a h htask => ⟨fun hg => ?_, fun hg => ?_⟩⟩⟩
  · exact ⟨_, (act_hostAccess_running hheld).trans (next_dev (unlessPreload_idle hidle)), ⟨rfl, ramByte_writeWord_low _ _ _⟩, rfl⟩
  · refine ⟨_, exec_ringBodyWordWrite hheld hidle c p w v, ?_⟩
    rw [goOnEnding_elsewhere (d := writeWord _ _ _) hno]
    exact ⟨⟨rfl, ramByte_writeWord_low _ _ _⟩, rfl⟩
  · refine ⟨_, exec_ringControlWordWrite hheld hidle c p v, ?_⟩
    rw [goOnEnding_elsewhere (by rw [handedBack_ending]; exact hno)]
    exact ⟨⟨rfl, fun b => (ramByte_handedBack _ _ _ b).trans (ramByte_writeWord_low _ _ _ b)⟩, handedBack_withRam _ _ _ _⟩
  · have hfirst := exec_ringBodyWordWrite (s := { s with dev := { s.dev with ending := none } }) hheld hidle e.chan p w v
    rw [goOnEnding_elsewhere (by intro e h; cases h)] at hfirst
    refine ⟨_, hfirst, ?_⟩
    rw [exec_ringBodyWordWrite hheld hidle, goOnEnding_here (d := writeWord _ _ _) he]
    rfl
  · have hfirst := exec_ringControlWordWrite (s := { s with dev := { s.dev with ending := none } }) hheld hidle e.chan p v
    rw [goOnEnding_elsewhere (by rw [handedBack_ending]; intro e h; cases h)] at hfirst
    refine ⟨_, hfirst, ?_⟩
    rw [exec_ringControlWordWrite hheld hidle, goOnEnding_here (by rw [handedBack_ending]; exact he), handedBack_withEnding]
    rfl
  all_goals rw [show exec (.handback c) s = s.act (happening (takeHandback c)) from rfl, State.act_eq, happening_running hheld,
    takeHandback]
  · rw [if_pos h]
  · rw [if_neg h]
    refine next_dev ?_
    cases ht : (s.dev.ctl c).task
    case stall r a => rw [ht] at hphase; exact absurd rfl hphase
    all_goals rfl
  · rw [if_neg h, htask]
    exact next_dev (if_neg (by simp [hg]))
  · rw [if_neg h, htask]
    refine next_dev ((if_pos hg).trans ?_)
    have hfill : (modCtl c (fun k => { k with handbacks := k.handbacks - 1 }) (served (reqChan c) s.dev)).ctl c
        = { s.dev.ctl c with handbacks := (s.dev.ctl c).handbacks - 1 } := modCtl_ctl_self _ _ _
    simp only [fillStalled, fillControl, fillAddr, handbackTaken, hfill, ownPart, ringAddr]

end Sys2Proof.Machine
end

section
/-! The clock: word times, ticks, and the loss and return of REFCLK (R20, R22 to R26, R110, R111, R158 to R164). -/

namespace Sys2Proof.Machine

-- One theorem after another: a thread for each would take the memory a check allows.
set_option Elab.async false

open Sys2Proof

/-! ### The recurrence (R22) -/

theorem lfsrBits_add (p : Lfsr) (m k : Nat) (h : LaneWord) : lfsrBits p (m + k) h = lfsrBits p k (lfsrBits p m h) := by
  induction m generalizing h with
  | zero => rw [Nat.zero_add]; rfl
  | succ m ih => rw [show m + 1 + k = (m + k) + 1 by omega]; exact ih _

/-- One more bit of the sequence: the newest is the exclusive OR of the two taps, and the others move up by one. -/
theorem lfsrBit_getLsbD (p : Lfsr) (h : LaneWord) (j : Nat) : (lfsrBit p h).getLsbD j =
    if j = 0 then Bool.xor (h.getLsbD (lfsrTap p - 1)) (h.getLsbD (lfsrDegree p - 1))
    else decide (j < 32) && h.getLsbD (j - 1) := by
  unfold lfsrBit
  simp only [BitVec.getLsbD_or, BitVec.getLsbD_shiftLeft, BitVec.getLsbD_setWidth, BitVec.getLsbD_ofBool]
  by_cases hj : j = 0
  · subst hj; simp
  · have h1 : ¬ j < 1 := by omega
    simp [hj, h1]

/-- The bits of a sequence move up as it goes on. -/
theorem lfsrBits_getLsbD_shift (p : Lfsr) (k j : Nat) (h : LaneWord) (hj : j + k < 32) :
    (lfsrBits p k h).getLsbD (j + k) = h.getLsbD j := by
  induction k generalizing h j with
  | zero => rfl
  | succ k ih =>
    have hstep : (lfsrBits p (k + 1) h) = lfsrBits p k (lfsrBit p h) := rfl
    rw [hstep, show j + (k + 1) = (j + 1) + k by omega, ih (j + 1) _ (by omega), lfsrBit_getLsbD, if_neg (by omega)]
    simp [show j + 1 < 32 by omega]

/-- A bit of the next word or of the one before it, by its place in the state that the sequence has after 31 − `i` bits. -/
theorem lfsrNext_getLsbD (p : Lfsr) (h : LaneWord) (i a : Nat) (hi : i < 32) (ha : 0 < a) (ha' : a ≤ 32) :
    (lfsrBits p (31 - i) h).getLsbD (a - 1) = (h ++ lfsrNext p h).getLsbD (i + a) := by
  rw [BitVec.getLsbD_append]
  by_cases hlow : i + a < 32
  · have hsplit : lfsrNext p h = lfsrBits p (i + 1) (lfsrBits p (31 - i) h) := by
      rw [← lfsrBits_add, show 31 - i + (i + 1) = 32 by omega]; rfl
    rw [if_pos hlow, hsplit, show i + a = (a - 1) + (i + 1) by omega, lfsrBits_getLsbD_shift p (i + 1) (a - 1) _ (by omega)]
  · rw [if_neg hlow, show a - 1 = (i + a - 32) + (31 - i) by omega, lfsrBits_getLsbD_shift p _ _ h (by omega)]

/-- Each bit of the next word is the exclusive OR of the bits a and n places earlier. -/
theorem lfsrNext_recurrence (p : Lfsr) (h : LaneWord) (i : Nat) (hi : i < 32) :
    (h ++ lfsrNext p h).getLsbD i =
      Bool.xor ((h ++ lfsrNext p h).getLsbD (i + lfsrTap p)) ((h ++ lfsrNext p h).getLsbD (i + lfsrDegree p)) := by
  have hbounds : 0 < lfsrTap p ∧ lfsrTap p ≤ 32 ∧ 0 < lfsrDegree p ∧ lfsrDegree p ≤ 32 := by cases p <;> decide
  obtain ⟨ha, ha', hn, hn'⟩ := hbounds
  rw [← lfsrNext_getLsbD p h i _ hi ha ha', ← lfsrNext_getLsbD p h i _ hi hn hn', BitVec.getLsbD_append, if_pos hi]
  have hsplit : lfsrNext p h = lfsrBits p i (lfsrBit p (lfsrBits p (31 - i) h)) := by
    have : lfsrBits p (31 - i + (i + 1)) h = lfsrBits p (i + 1) (lfsrBits p (31 - i) h) := lfsrBits_add _ _ _ _
    rw [show 31 - i + (i + 1) = 32 by omega] at this
    exact this
  have hshift := lfsrBits_getLsbD_shift p i 0 (lfsrBit p (lfsrBits p (31 - i) h)) (by omega)
  rw [Nat.zero_add] at hshift
  rw [hsplit, hshift, lfsrBit_getLsbD, if_pos rfl]

/-! ### Word times -/

theorem exec_wordTime {s : State} (h : s.dev.held = false) : exec .wordTime s = .next { s with dev := wordTime s.dev } :=
  next_dev (happening_running h)

/-- Settles O40: the recurrence, and a word time's words, generators and edge. -/
theorem wordTimesSendAndAdvance : Obligations.WordTimesSendAndAdvance := by
  refine ⟨fun s hheld habsent => ?_, fun s hheld hpresent => ?_, fun p n a hmem h i hi => ?_, by decide +kernel⟩
  · rw [exec_wordTime hheld, wordTime_absent _ habsent]
  · intro off plain emitted sent
    have hlane (t : Chan) : laneWord s.dev t =
        if off t then none
        else
          match s.dev.lanes.txSource.get t with
          | .off => some 0x55555555
          | .gen g => some (emitted g)
          | .loop r =>
            if ¬ off r ∧ s.dev.lanes.activity.get r = true then s.dev.lanes.tx.get t else some 0x55555555 := by
      unfold laneWord
      refine if_congr Iff.rfl rfl ?_
      cases s.dev.lanes.txSource.get t with
      | off => rfl
      | gen g =>
        refine congrArg some ?_
        have hplain : genModeWord (s.dev.chan g).gen = plain (s.dev.chan g).gen := by
          unfold genModeWord
          cases h : (s.dev.chan g).gen.mode
          all_goals simp only [plain, h]
          rfl
        exact if_congr decide_eq_true_iff rfl (if_congr Iff.rfl (congrArg (~~~ ·) hplain) hplain)
      | loop r => exact if_congr (by simp [laneReport, off]) rfl rfl
    have hchan (c : Chan) : { s.dev.chan c with gen := genAdvance ((s.dev.chan c).ctl.state = .off) (s.dev.chan c).gen } =
        { s.dev.chan c with
          gen :=
            if off c then (s.dev.chan c).gen
            else
              match (s.dev.chan c).gen.mode with
              | .off => (s.dev.chan c).gen
              | .lfsr p => { (s.dev.chan c).gen with history := lfsrNext p (s.dev.chan c).gen.history }
              | .user =>
                { (s.dev.chan c).gen with
                  position := nextPosition (s.dev.chan c).gen.userLength (s.dev.chan c).gen.position } } := by
      refine congrArg (fun g => { s.dev.chan c with gen := g }) ?_
      unfold genAdvance
      exact if_congr decide_eq_true_iff rfl rfl
    have hsent : sendWords s.dev = sent :=
      congrArg₂ (fun l k : _ => { s.dev with
          lanes := { s.dev.lanes with tx := Eight.build l }
          chans := Eight.build k }) (funext hlane) (funext hchan)
    rw [exec_wordTime hheld, wordTime_present _ hpresent, hsent]
  · have htaps : n = lfsrDegree p ∧ a = lfsrTap p := by
      simp only [List.mem_cons, Prod.mk.injEq, List.not_mem_nil, or_false] at hmem
      rcases hmem with ⟨rfl, rfl, rfl⟩ | ⟨rfl, rfl, rfl⟩ | ⟨rfl, rfl, rfl⟩ | ⟨rfl, rfl, rfl⟩
      all_goals exact ⟨rfl, rfl⟩
    obtain ⟨rfl, rfl⟩ := htaps
    exact lfsrNext_recurrence p h i hi

/-! ### Ticks -/

/-- The word times before the last of a tick: each counts one edge, and leaves what a tick counts. -/
theorem wordTime_counts {d : Device} (h : d.time.present = true) (hl : d.time.prescaler + 1 < d.time.tickLength) :
    wordTime d = { sendWords d with time := { d.time with prescaler := d.time.prescaler + 1, gap := 0 } } := by
  rw [wordTime_present d h, if_pos hl]

theorem wordTime_ticks {d : Device} (h : d.time.present = true) (hl : ¬ d.time.prescaler + 1 < d.time.tickLength) :
    wordTime d =
      ticked { sendWords d with time := { d.time with prescaler := 0, tickLength := d.time.refDivider.toNat, gap := 0 } } := by
  rw [wordTime_present d h, if_neg hl]

/-- What a tick leaves, but for the words and generators of its word times. -/
structure TickLeaves (d e : Device) : Prop where
  time : e.time = { (ticked d).time with prescaler := 0, tickLength := d.time.refDivider.toNat, gap := 0 }
  group : ∀ g, e.group g = (ticked d).group g
  chan : ∀ c, e.chan c = { (ticked d).chan c with gen := (e.chan c).gen }

theorem ticked_chan (d : Device) (c : Chan) : (ticked d).chan c =
    { d.chan c with ctl := { (d.chan c).ctl with timer := (d.chan c).ctl.timer.map fun x => { x with left := x.left - 1 } } } :=
  mapChans_chan _ _ c

theorem ticked_group (d : Device) (g : Grp) :
    (ticked d).group g = { d.group g with barrier := (d.group g).barrier.map fun n => n - 1 } := Four.get_build _ g

theorem sendWords_chan (d : Device) (c : Chan) : (sendWords d).chan c =
    { d.chan c with gen := genAdvance ((d.chan c).ctl.state = .off) (d.chan c).gen } := Eight.get_build _ c

/-- A tick's last word time. -/
theorem tickLeaves_last {d : Device} (h : d.time.present = true) (hl : ¬ d.time.prescaler + 1 < d.time.tickLength) :
    TickLeaves d (wordTime d) := by
  rw [wordTime_ticks h hl]
  refine ⟨?_, fun g => ?_, fun c => ?_⟩
  · show (if d.time.subMs + 1 < 1000 then _ else _) = _
    unfold ticked
    dsimp only
    split
    · rfl
    · rfl
  · rw [ticked_group, ticked_group]; rfl
  · rw [ticked_chan, ticked_chan]
    show _ = _
    rw [show ({ sendWords d with time := { d.time with prescaler := 0, tickLength := d.time.refDivider.toNat, gap := 0 } } :
      Device).chan c = (sendWords d).chan c from rfl, sendWords_chan]

/-- A word time before the last leaves what the tick will count. -/
theorem TickLeaves.ofCount {d e : Device} {n : Nat}
    (h : TickLeaves { sendWords d with time := { d.time with prescaler := n, gap := 0 } } e) : TickLeaves d e := by
  refine ⟨h.time.trans ?_, fun g => (h.group g).trans ?_, fun c => (h.chan c).trans ?_⟩
  · unfold ticked
    dsimp only
    split
    · rfl
    · rfl
  · rw [ticked_group, ticked_group]; rfl
  · rw [ticked_chan, ticked_chan]
    rw [show ({ sendWords d with time := { d.time with prescaler := n, gap := 0 } } : Device).chan c = (sendWords d).chan c from rfl,
      sendWords_chan]

/-- The word times that a tick takes count what a tick counts, once. -/
theorem tickLeaves_wordTimes (n : Nat) (d : Device) (h : d.time.present = true) (hn : edgesLeft d.time = n + 1) :
    TickLeaves d (wordTimes (n + 1) d) := by
  induction n generalizing d with
  | zero =>
    unfold edgesLeft at hn
    exact tickLeaves_last h (by omega)
  | succ n ih =>
    have hl : d.time.prescaler + 1 < d.time.tickLength := by unfold edgesLeft at hn; omega
    rw [wordTimes_succ, wordTime_counts h hl]
    refine TickLeaves.ofCount (n := d.time.prescaler + 1)
      (ih { sendWords d with time := { d.time with prescaler := d.time.prescaler + 1, gap := 0 } } h ?_)
    unfold edgesLeft at hn ⊢
    dsimp only
    omega

theorem wordTime_held (d : Device) : (wordTime d).held = d.held := by
  unfold wordTime
  split
  · dsimp only
    split <;> rfl
  · rfl

theorem runAll_wordTimes (n : Nat) {s : State} (h : s.dev.held = false) :
    runAll (List.replicate n .wordTime) s = { s with dev := wordTimes n s.dev } := by
  induction n generalizing s with
  | zero => rfl
  | succ n ih =>
    simp only [List.replicate_succ, runAll, exec_wordTime h]
    exact ih (s := { s with dev := wordTime s.dev }) ((wordTime_held _).trans h)

theorem edgesLeft_eq (t : Timebase) : edgesLeft t = max 1 (t.tickLength - t.prescaler) := by
  unfold edgesLeft
  omega

/-- Settles O42: the two accesses, and a tick as its word times. -/
theorem timebaseAccessesAndTicks : Obligations.TimebaseAccessesAndTicks := by
  refine ⟨fun v s hheld hidle => ?_, fun s hheld => ?_, fun s hheld => ⟨fun habsent => ?_, fun hpresent => ?_⟩⟩
  · refine (act_hostAccess_running hheld).trans (next_dev ((unlessPreload_idle hidle).trans ?_))
    dsimp only
    by_cases hv : 10 ≤ v.toNat ∧ v.toNat ≤ 200
    · rw [if_pos hv, if_neg (by omega)]
    · rw [if_neg hv, if_pos (by omega), badWrite_eq]
  · exact act_hostAccess_running hheld
  · exact next_dev ((happening_running hheld).trans (if_neg (by simp [habsent])))
  · have htick : exec .tick s = .next { s with dev := wordTimes (edgesLeft s.dev.time) s.dev } :=
      next_dev ((happening_running hheld).trans (if_pos hpresent))
    refine ⟨by rw [htick, runAll_wordTimes _ hheld, edgesLeft_eq], _, htick, rfl, ?_⟩
    have hleaves := tickLeaves_wordTimes (s.dev.time.tickLength - (s.dev.time.prescaler + 1)) s.dev hpresent rfl
    exact ⟨hleaves.time, hleaves.group, hleaves.chan⟩

/-! ### REFCLK -/

/-- Settles O43: the monitor's two happenings, and the return as a break in a checker's stream. -/
theorem refclkLossAndReturn : Obligations.RefclkLossAndReturn := by
  intro s hheld
  refine ⟨fun hpresent => ⟨?_, ?_⟩, fun habsent => ⟨?_, ?_⟩, fun c => ⟨fun h => ?_, fun hreturn hpresent => ?_⟩⟩
  · exact next_dev ((happening_running hheld).trans (if_pos hpresent))
  · exact next_dev ((happening_running hheld).trans (if_pos hpresent))
  · exact next_dev ((happening_running hheld).trans (if_neg (by simp [habsent])))
  · refine ⟨_, exec_wordTime hheld, next_dev ((happening_running hheld).trans ((if_neg (by simp [habsent])).trans ?_))⟩
    refine congrArg (fun k : Chan → Channel => devRaise .refOk (wordTime
      { s.dev with time := { s.dev.time with present := true }, chans := Eight.build k })) (funext fun c => ?_)
    refine congrArg (fun b => { s.dev.chan c with chk := { (s.dev.chan c).chk with refReturn := (s.dev.chan c).chk.refReturn || b } }) ?_
    show decide ((s.dev.chan c).chk.state ≠ .off) = ((s.dev.chan c).chk.state != .off)
    cases (s.dev.chan c).chk.state <;> rfl
  · refine next_dev ((happening_running hheld).trans (if_neg ?_))
    rcases h with h | h <;> simp [h]
  · refine next_dev ((happening_running hheld).trans ((if_pos (by simp [hreturn, hpresent])).trans ?_))
    rw [atChecker_eq, modChan_modChan]
    exact modChan_congr (stepAt_break _ _)

end Sys2Proof.Machine
end

section
/-! The RAM Arbiter's rotation, and the Pace Controller's request among its groups (R180). -/

namespace Sys2Proof.Machine

-- One theorem after another: a thread for each would take the memory a check allows.
set_option Elab.async false

open Sys2Proof

/-! ### The first in a rotation -/

/-- A search through consecutive numbers finds the first that answers. -/
theorem findSome?_range'_eq_some {β : Type} (f : Nat → Option β) (m n : Nat) (b : β) :
    (List.range' m n).findSome? f = some b ↔ ∃ k, m ≤ k ∧ k < m + n ∧ f k = some b ∧ ∀ j, m ≤ j → j < k → f j = none := by
  induction n generalizing m with
  | zero => exact ⟨fun h => by simp at h, fun ⟨k, h1, h2, _⟩ => by omega⟩
  | succ n ih =>
    rw [List.range'_succ, List.findSome?_cons]
    cases hf : f m with
    | some x =>
      constructor
      · rintro ⟨⟩
        exact ⟨m, le_rfl, by omega, hf, fun j h1 h2 => by omega⟩
      · rintro ⟨k, hk1, _, hk, hfirst⟩
        by_cases hmk : k = m
        · rw [← hk, hmk, hf]
        · rw [hfirst m le_rfl (by omega)] at hf; cases hf
    | none =>
      rw [ih]
      constructor
      · rintro ⟨k, hk1, hk2, hk, hfirst⟩
        refine ⟨k, by omega, by omega, hk, fun j h1 h2 => ?_⟩
        by_cases hj : j = m
        · rw [hj, hf]
        · exact hfirst j (by omega) h2
      · rintro ⟨k, hk1, hk2, hk, hfirst⟩
        have hmk : k ≠ m := fun h => by rw [h, hf] at hk; cases hk
        exact ⟨k, by omega, by omega, hk, fun j h1 h2 => hfirst j (by omega) h2⟩

/-- The place of a requester in the rotation after the one last served. -/
def turnOf (a : Arbiter) (q : Requester) : Nat := (q.val + 9 - a.lastServed.val) % 10

theorem turnOf_injective {a : Arbiter} {p q : Requester} (h : turnOf a p = turnOf a q) : p = q := by
  have := p.isLt
  have := q.isLt
  have := a.lastServed.isLt
  unfold turnOf at h
  exact Fin.ext (by omega)

/-- The first that waits in the rotation is the one whose turn comes before those of all others that wait. -/
theorem firstWaiting_iff (requests : Requester → Bool) (a : Arbiter) (r : Requester) :
    firstWaiting requests a = some r ↔
      (turnDue a r || requests r) = true ∧ ∀ q, (turnDue a q || requests q) = true → turnOf a r ≤ turnOf a q := by
  have hlast := a.lastServed.isLt
  have hr := r.isLt
  have hnth (k : Nat) : (a.lastServed.val + k) % 10 < 10 := Nat.mod_lt _ (by decide)
  have hplace (k : Nat) (hk : 1 ≤ k) (hk' : k < 11) : turnOf a ⟨(a.lastServed.val + k) % 10, hnth k⟩ = k - 1 := by
    unfold turnOf; dsimp only; omega
  have hat (q : Requester) : (⟨(a.lastServed.val + (turnOf a q + 1)) % 10, hnth _⟩ : Requester) = q := by
    have := q.isLt
    refine Fin.ext ?_
    unfold turnOf; dsimp only; omega
  rw [show firstWaiting requests a = (List.range' 1 10).findSome? _ from rfl, findSome?_range'_eq_some]
  constructor
  · rintro ⟨k, hk1, hk2, hk, hfirst⟩
    dsimp only at hk hfirst
    split at hk
    · next hw =>
      cases hk
      refine ⟨hw, fun q hq => ?_⟩
      rw [hplace k hk1 (by omega)]
      by_contra hlt
      have := hfirst (turnOf a q + 1) (by omega) (by omega)
      rw [hat q, if_pos hq] at this
      cases this
    · cases hk
  · rintro ⟨hw, hfirst⟩
    have hlt : turnOf a r < 10 := Nat.mod_lt _ (by decide)
    refine ⟨turnOf a r + 1, by omega, by omega, ?_, fun j hj1 hj2 => ?_⟩
    · dsimp only
      rw [hat r, if_pos hw]
    · dsimp only
      refine if_neg fun hq => ?_
      have := hfirst _ hq
      rw [hplace j hj1 (by omega)] at this
      omega

theorem firstWaiting_isSome {requests : Requester → Bool} {a : Arbiter} {r : Requester} (h : requests r = true) :
    ∃ q, firstWaiting requests a = some q := by
  have hlast := a.lastServed.isLt
  have hr := r.isLt
  cases hf : firstWaiting requests a with
  | some q => exact ⟨q, rfl⟩
  | none =>
    rw [show firstWaiting requests a = (List.range' 1 10).findSome? _ from rfl, List.findSome?_eq_none_iff] at hf
    have hlt : turnOf a r < 10 := Nat.mod_lt _ (by decide)
    have hat : (⟨(a.lastServed.val + (turnOf a r + 1)) % 10, Nat.mod_lt _ (by decide)⟩ : Requester) = r := by
      refine Fin.ext ?_
      unfold turnOf; dsimp only; omega
    have := hf (turnOf a r + 1) (List.mem_range'_1.2 (by omega))
    dsimp only at this
    rw [hat, if_pos (by simp [h])] at this
    cases this

/-! ### Turns that pass -/

theorem turnDue_iff (a : Arbiter) (q : Requester) : turnDue a q = true ↔ ∃ c : Chan, q = reqChan c ∧ a.turns.get c ≠ 0 := by
  unfold turnDue
  constructor
  · intro h
    split at h
    · next hq => exact ⟨⟨q.val, hq⟩, rfl, by simpa using h⟩
    · cases h
  · rintro ⟨c, rfl, hc⟩
    rw [dif_pos (show (reqChan c).val < 8 from c.isLt)]
    simpa [reqChan] using hc

/-- Once the turns that come before the first request have been passed, none is first in the rotation. -/
theorem passTurns_first (requests : Requester → Bool) (n : Nat) (a : Arbiter) (hn : turnsLeft a ≤ n) (c : Chan)
    (h : firstWaiting requests (passTurns requests n a) = some (reqChan c)) : (passTurns requests n a).turns.get c = 0 := by
  induction n generalizing a with
  | zero =>
    by_contra hc
    have := turnsLeft_passTurn c a hc
    omega
  | succ n ih =>
    unfold passTurns at h ⊢
    cases hf : firstWaiting requests a with
    | none => simp only [hf] at h; cases h
    | some r =>
      simp only [hf] at h ⊢
      by_cases hr : r.val < 8
      · rw [dif_pos hr] at h ⊢
        by_cases hz : a.turns.get ⟨r.val, hr⟩ = 0
        · rw [if_pos hz] at h ⊢
          rw [hf] at h
          cases h
          exact hz
        · rw [if_neg hz] at h ⊢
          have := turnsLeft_passTurn _ a hz
          exact ih _ (by omega) h
      · rw [dif_neg hr] at h
        rw [hf] at h
        cases h
        exact absurd c.isLt hr

theorem settled_first (d : Device) (c : Chan) (h : firstWaiting (requesting d) (settled d) = some (reqChan c)) :
    (settled d).turns.get c = 0 := passTurns_first _ _ _ le_rfl c h

/-- The first in the rotation of a settled arbiter holds a request. -/
theorem settled_requesting {d : Device} {r : Requester} (h : firstWaiting (requesting d) (settled d) = some r) :
    requesting d r = true := by
  have hw := ((firstWaiting_iff _ _ _).1 h).1
  rw [Bool.or_eq_true] at hw
  refine hw.resolve_left fun hdue => ?_
  obtain ⟨c, rfl, hc⟩ := (turnDue_iff _ _).1 hdue
  exact hc (settled_first d c h)

theorem granted_iff (d : Device) (r : Requester) : granted d r = true ↔
    requesting d r = true ∧ ∀ q, requesting d q = true → turnOf (settled d) r ≤ turnOf (settled d) q := by
  rw [granted, decide_eq_true_eq, arbiterPick]
  constructor
  · intro h
    exact ⟨settled_requesting h, fun q hq => ((firstWaiting_iff _ _ _).1 h).2 q (by simp [hq])⟩
  · rintro ⟨hr, hfirst⟩
    obtain ⟨q, hq⟩ := firstWaiting_isSome (a := settled d) hr
    have hle := hfirst q (settled_requesting hq)
    have hge := ((firstWaiting_iff _ _ _).1 hq).2 r (by simp [hr])
    rw [hq, turnOf_injective (Nat.le_antisymm hge hle)]

/-! ### The Pace Controller's request -/

theorem groupWaiting_iff (d : Device) (g : Grp) : groupWaiting d g = true ↔ (d.group g).halting = false
    ∧ ((∃ n p, (d.group g).task = .check (.reading n p)) ∨ (∃ n, (d.group g).task = .walk n)
      ∨ ∃ i, (d.group g).task = .selectedRefetch i) := by
  unfold groupWaiting
  rw [Bool.and_eq_true, Bool.not_eq_true']
  refine and_congr Iff.rfl ?_
  cases (d.group g).task with
  | check p => cases p <;> simp
  | _ => simp

/-- The place of a group in the rotation after the one last served. -/
def placeOf (a : Arbiter) (g : Grp) : Nat := (g.val + 3 - a.lastGroup.val) % 4

theorem nextGroup_some {d : Device} {g : Grp} (hg : groupWaiting d g = true)
    (hfirst : ∀ h, groupWaiting d h = true → placeOf d.arbiter g ≤ placeOf d.arbiter h) : nextGroup d = some g := by
  have hlast := d.arbiter.lastGroup.isLt
  have hlt := g.isLt
  have hplace : placeOf d.arbiter g < 4 := Nat.mod_lt _ (by decide)
  rw [show nextGroup d = (List.range' 1 4).findSome? _ from rfl, findSome?_range'_eq_some]
  refine ⟨placeOf d.arbiter g + 1, by omega, by omega, ?_, fun j hj1 hj2 => ?_⟩
  · have hat : (⟨(d.arbiter.lastGroup.val + (placeOf d.arbiter g + 1)) % 4, Nat.mod_lt _ (by decide)⟩ : Grp) = g := by
      refine Fin.ext ?_
      unfold placeOf; dsimp only; omega
    dsimp only
    rw [hat, if_pos hg]
  · dsimp only
    refine if_neg fun hq => ?_
    have := hfirst _ hq
    unfold placeOf at this hj2
    dsimp only at this
    omega

theorem nextGroup_none {d : Device} (h : ∀ g, ¬ groupWaiting d g = true) : nextGroup d = none := by
  unfold nextGroup
  rw [List.findSome?_eq_none_iff]
  exact fun k _ => if_neg (h _)

/-- The Pace Controller names the next of its groups where none that it holds a request for still waits. -/
theorem paceRefresh_names {d : Device} (h : ∀ g, d.arbiter.paceRequest = some g → ¬ groupWaiting d g = true) :
    paceRefresh d = { d with arbiter := { d.arbiter with paceRequest := nextGroup d } } := by
  unfold paceRefresh
  cases hg : d.arbiter.paceRequest with
  | none => rfl
  | some g => exact if_neg (h g hg)

/-- Settles O44: the first in each rotation, and the turns that pass. -/
theorem arbiterServesInRotation : Obligations.ArbiterServesInRotation := by
  intro d r
  have hwaits (q : Requester) : (requesting d q = true ∨ ∃ c : Chan, q = reqChan c ∧ d.arbiter.turns.get c ≠ 0) ↔
      (turnDue d.arbiter q || requesting d q) = true := by
    rw [Bool.or_eq_true, turnDue_iff, or_comm]
  simp only [hwaits, ← groupWaiting_iff]
  refine ⟨granted_iff d r, fun c hfirst hc => ?_, fun h => ?_, rfl, fun c => rfl, fun g hg hw => ?_, fun hno => ⟨fun g hg hfirst => ?_,
    fun hnone => ?_⟩⟩
  · exact settled_turn d c ((firstWaiting_iff _ _ _).2 hfirst) hc
  · exact settled_request d fun c hc => h c ((firstWaiting_iff _ _ _).1 hc)
  · unfold paceRefresh
    rw [hg]
    exact if_pos hw
  · rw [paceRefresh_names hno, nextGroup_some hg hfirst]
  · rw [paceRefresh_names hno, nextGroup_none hnone]

end Sys2Proof.Machine
end

section
/-! A received word at the lanes that loop it and at the checkers that watch its lane (R28 to R40, R111). -/

namespace Sys2Proof.Machine

-- One theorem after another: a thread for each would take the memory a check allows.
set_option Elab.async false

open Sys2Proof

/-! ### The search -/

/-- The lowest channel or candidate of which a condition holds. -/
theorem find?_allChans {p : Fin 8 → Bool} {i : Fin 8} (hi : p i = true) (hfirst : ∀ j, j < i → p j = false) :
    allChans.find? p = some i := by
  fin_cases i <;> simp_all [allChans]

theorem lockWinner_some {counts : Eight Nat} {i : Fin 8} (hi : 16 ≤ counts.get i) (hfirst : ∀ j, j < i → counts.get j < 16) :
    lockWinner counts = some i :=
  find?_allChans (by simpa using hi) fun j hj => by simpa using hfirst j hj

theorem lockWinner_none {counts : Eight Nat} (h : ∀ i, counts.get i < 16) : lockWinner counts = none := by
  unfold lockWinner
  rw [List.find?_eq_none]
  intro i _
  have := h i
  simpa using this

theorem stepAt_stay (x : Checker) (k : Channel) : stepAt (fun _ => chkStay x) k = { k with chk := x } := by
  simp [stepAt, chkStay, chanRaiseAll]

/-- A channel whose checker locks. -/
theorem stepAt_lock (x : Checker) (k : Channel) : stepAt (fun _ => chkLock x) k =
    { k with
      chk := { x with state := .locked, errorRun := 0 }
      raised := k.raised ++ [.lock], ctl := { k.ctl with inbox := k.ctl.inbox ++ [.lockGained] } } := rfl

/-! ### The comparison -/

/-- The closure that a word with `e` errors brings (R38), the early stop first. -/
def closureOf (e : Nat) (p : PointCounters) : List Handed :=
  match p.target with
  | none => []
  | some (n, limit) =>
    if (limit.any fun l => decide (l ≤ p.bits + e)) = true then [.closure true]
    else if p.words + 1 = n then [.closure false] else []

/-- The point counters after a word with `e` errors, and the closure it brings. -/
theorem pointWord_eq (e : Nat) (p : PointCounters) :
    pointWord e p =
      (if p.target = none then p
        else
          { words := p.words + 1, bits := p.bits + e, errored := p.errored + (if e = 0 then 0 else 1)
            firstError := if p.firstError = none ∧ e ≠ 0 then some p.words else p.firstError
            target := if closureOf e p = [] then p.target else none }, closureOf e p) := by
  unfold pointWord closureOf
  cases ht : p.target with
  | none => simp
  | some x =>
    obtain ⟨n, limit⟩ := x
    cases limit with
    | none =>
      by_cases hn : p.words + 1 = n <;> simp [pointJudge, pointCount, ht, hn]
    | some l =>
      by_cases hl : l ≤ p.bits + e
      · simp [pointJudge, pointCount, ht, hl]
      · by_cases hn : p.words + 1 = n <;> simp [pointJudge, pointCount, ht, hl, hn]

/-! ### A word at a checker -/

theorem stepAt_eq {f : Checker → CheckerStep} {k : Channel} {o : CheckerStep} (h : f k.chk = o) : stepAt f k = stepAt (fun _ => o) k := by
  unfold stepAt; rw [h]

theorem receiveWord_eq {r : Chan} {w : LaneWord} {d : Device}
    (h : d.time.present = true ∧ (d.ctl r).state ≠ .off ∧ d.lanes.activity.get r = true) :
    receiveWord r w d =
      mapChans (fun c k => if d.lanes.checkerSource.get c = r then stepAt (chkWord k.gen w) k else k) (loopWord r w d) := by
  have hreport : (d.time.present && laneReport d r) = true := by simp [laneReport, h.1, h.2.1, h.2.2]
  unfold receiveWord
  rw [if_pos hreport]
  refine forChans_inv (fun e => e.lanes.checkerSource = d.lanes.checkerSource) _ _ (fun c e he => ?_) (fun c e he => he) _ rfl
  rw [he, atChecker_eq, ite_modChan]
  exact modChan_congr rfl

/-- The counts of AUTO and FIXED after a word: as they were where it is the first, and else by each candidate's prediction from the word
before it. -/
def lfsrKnown (x : Checker) (w : LaneWord) : Eight Nat :=
  Eight.build fun i =>
    match x.previous with
    | none => x.counts.get i
    | some p =>
      if (x.mode = .auto ∨ candidatePattern i = x.fixedPattern ∧ candidateInverted i = x.fixedInverted)
        ∧ predict (candidatePattern i) (candidateInverted i) p = w
      then x.counts.get i + 1 else 0

theorem lfsrKnown_first {x : Checker} (h : x.previous = none) (w : LaneWord) : lfsrKnown x w = x.counts := by
  unfold lfsrKnown
  simp only [h, Eight.build_get]

theorem lfsrKnown_next {x : Checker} {p : LaneWord} (hmode : x.mode = .auto ∨ x.mode = .fixed) (h : x.previous = some p)
    (w : LaneWord) : lfsrCounts x p w = lfsrKnown x w := by
  unfold lfsrCounts lfsrKnown candidateKept
  refine congrArg Eight.build (funext fun i => ?_)
  simp only [h]
  refine if_congr ?_ rfl rfl
  rcases hmode with hm | hm <;> simp [hm]

section SearchLfsr
variable {x : Checker} (hmode : x.mode = .auto ∨ x.mode = .fixed) {w : LaneWord}

theorem searchLfsr_extreme (hw : w = 0 ∨ w = BitVec.allOnes 32) :
    searchLfsr w x = chkStay { x with counts := Eight.build fun _ => 0, previous := some w } := if_pos hw

include hmode

theorem searchLfsr_counts (h0 : w ≠ 0) (h1 : w ≠ BitVec.allOnes 32) (hno : x.previous = none ∨ ∀ i, (lfsrKnown x w).get i < 16) :
    searchLfsr w x = chkStay { x with counts := lfsrKnown x w, previous := some w } := by
  unfold searchLfsr
  rw [if_neg (not_or.2 ⟨h0, h1⟩)]
  cases hp : x.previous with
  | none => rw [lfsrKnown_first hp]
  | some p =>
    have hbelow := hno.resolve_left (by simp [hp])
    simp only [lfsrKnown_next hmode hp, lockWinner_none hbelow]

theorem searchLfsr_locks (h0 : w ≠ 0) (h1 : w ≠ BitVec.allOnes 32) (hp : x.previous ≠ none) {i : Fin 8}
    (hi : 16 ≤ (lfsrKnown x w).get i) (hfirst : ∀ j, j < i → (lfsrKnown x w).get j < 16) :
    searchLfsr w x = chkLock
      { x with
        counts := lfsrKnown x w, previous := some w, detected := .lfsr (candidatePattern i),
        detectedInverted := candidateInverted i, userPosition := 0, reference := if candidateInverted i then ~~~w else w } := by
  unfold searchLfsr
  rw [if_neg (not_or.2 ⟨h0, h1⟩)]
  cases hpre : x.previous with
  | none => exact absurd hpre hp
  | some p => simp only [lfsrKnown_next hmode hpre, lockWinner_some hi hfirst]

end SearchLfsr

theorem chkWord_lfsr {g : Generator} {w : LaneWord} {x : Checker} (hs : x.state = .search)
    (hmode : x.mode = .auto ∨ x.mode = .fixed) : chkWord g w x = searchLfsr w x := by
  unfold chkWord
  rw [hs]
  rcases hmode with hm | hm <;> simp only [hm]

theorem chkWord_user {g : Generator} {w : LaneWord} {x : Checker} (hs : x.state = .search) (hmode : x.mode = .user) :
    chkWord g w x = searchUser g w x := by
  unfold chkWord
  simp only [hs, hmode]

theorem searchUser_counts {g : Generator} {w : LaneWord} {x : Checker} (hno : ∀ i, (userCounts g x w).get i < 16) :
    searchUser g w x = chkStay { x with counts := userCounts g x w, previous := some w } := by
  unfold searchUser
  simp only [lockWinner_none hno]

theorem searchUser_locks {g : Generator} {w : LaneWord} {x : Checker} {q : Fin 4} {i : Fin 8} (hq : i.val = q.val)
    (hi : 16 ≤ (userCounts g x w).get i) (hfirst : ∀ j, j < i → (userCounts g x w).get j < 16) :
    searchUser g w x = chkLock
      { x with
        counts := userCounts g x w, previous := some w, detected := .user, detectedInverted := x.fixedInverted, userPosition := q,
        expected := nextPosition g.userLength q } := by
  have hpos : (⟨i.val % 4, Nat.mod_lt _ (by decide)⟩ : Fin 4) = q := Fin.ext (by have := q.isLt; simp only; omega)
  unfold searchUser
  simp only [lockWinner_some hi hfirst, hpos]

/-- A locked checker after a word with `e` errors, while the lock holds. -/
def compared (g : Generator) (e : Nat) (x : Checker) : Checker :=
  { x with
    monitor :=
      { words := satAdd x.monitor.words 1, bits := satAdd x.monitor.bits e
        errored := satAdd x.monitor.errored (if e = 0 then 0 else 1) }
    reference := match x.detected with | .lfsr p => lfsrNext p x.reference | _ => x.reference
    expected := match x.detected with | .user => nextPosition g.userLength x.expected | _ => x.expected
    errorRun := if e = 0 then 0 else x.errorRun + 1
    point := (pointWord e x.point).1 }

theorem compareWord_eq (g : Generator) (w : LaneWord) (x : Checker) :
    compareWord g w x =
      let e := bitErrors w (expectedWord g x)
      if (if e = 0 then 0 else x.errorRun + 1) < 32 then
        { chk := compared g e x, events := [], handed := closureOf e x.point }
      else
        { chk := chkFresh (chkClose (compared g e x)), events := [.unlock], handed := closureOf e x.point ++ [.lockLost] } := by
  have hadvance (e : Nat) : { advanceReference g x with
      monitor := monitorCount e x.monitor, point := (pointWord e x.point).1,
      errorRun := if e = 0 then 0 else x.errorRun + 1 } = compared g e x := by
    unfold advanceReference compared monitorCount
    cases hd : x.detected <;> simp [hd]
  have hclosure (e : Nat) : (pointWord e x.point).2 = closureOf e x.point := by rw [pointWord_eq]
  unfold compareWord
  simp only [hadvance, hclosure]
  generalize bitErrors w (expectedWord g x) = e
  by_cases hrun : (if e = 0 then 0 else x.errorRun + 1) < 32
  · rw [if_pos hrun, if_neg (by simpa [compared] using hrun)]
  · rw [if_neg hrun, if_pos (by simpa [compared] using hrun)]
    rfl

/-- The counts of USER after a word. -/
theorem userCounts_eq (g : Generator) (x : Checker) (w : LaneWord) :
    userCounts g x w = Eight.build fun i =>
      if h : i.val < 4 then
        let before : Fin 8 := if i.val = 0 then ⟨(g.userLength.toNat - 1) % 4, by omega⟩ else ⟨i.val - 1, by omega⟩
        if i.val < g.userLength.toNat ∧ w = userForm g x.fixedInverted ⟨i.val, h⟩ then x.counts.get before + 1 else 0
      else 0 := by
  unfold userCounts
  refine congrArg Eight.build (funext fun i => ?_)
  by_cases h : i.val < 4
  · rw [dif_pos h]
    by_cases hlen : i.val < g.userLength.toNat
    · rw [dif_pos ⟨h, hlen⟩]
      refine if_congr (by simp [hlen]) (congrArg (fun j => x.counts.get j + 1) (Fin.ext ?_)) rfl
      unfold priorPosition
      split
      · rfl
      · rfl
    · rw [dif_neg fun h' => hlen h'.2, if_neg fun h' => hlen h'.1]
  · rw [dif_neg h, dif_neg fun h' => h h'.1]

/-- Settles O41: a word by the state and mode of the checker that it reaches. -/
theorem receivedWordsReachCheckers : Obligations.ReceivedWordsReachCheckers := by
  intro r w s hheld delivered
  have hexec : exec (.receiveWord r w) s = .next { s with dev := receiveWord r w s.dev } := next_dev (happening_running hheld)
  refine ⟨fun h => ?_, fun h => ⟨_, hexec, rfl, ?_⟩⟩
  · have hreport : ¬ (s.dev.time.present && laneReport s.dev r) = true := fun h' => h (by simpa [laneReport, and_assoc] using h')
    rw [hexec, receiveWord, if_neg hreport]
  rw [receiveWord_eq h]
  refine ⟨rfl, rfl, fun c => ⟨fun hc => ?_, fun hc => ?_⟩⟩
  · exact (mapChans_chan _ _ c).trans (if_neg hc)
  have hchan : (mapChans (fun c k => if s.dev.lanes.checkerSource.get c = r then stepAt (chkWord k.gen w) k else k)
      (loopWord r w s.dev)).chan c = stepAt (chkWord (s.dev.chan c).gen w) (s.dev.chan c) :=
    (mapChans_chan _ _ c).trans (if_pos hc)
  rw [hchan]
  intro k x form following locks
  refine ⟨fun hs => ?_, fun hs hmode => ?_, fun hs hmode => ?_, fun hs hd => ?_⟩
  · have hword : chkWord k.gen w x = chkStay x := by
      unfold chkWord
      rcases hs with hs | hs <;> rw [hs]
    rw [stepAt_eq hword, stepAt_stay]
  · have hword : chkWord k.gen w x = searchLfsr w x := chkWord_lfsr hs hmode
    refine ⟨fun hw => ?_, fun h0 h1 hno => ?_, fun h0 h1 hp i hi hfirst => ?_⟩
    · rw [stepAt_eq (hword.trans (searchLfsr_extreme hw)), stepAt_stay]
    · rw [stepAt_eq (hword.trans (searchLfsr_counts hmode h0 h1 hno)), stepAt_stay]; rfl
    · rw [stepAt_eq (hword.trans (searchLfsr_locks hmode h0 h1 hp hi hfirst)), stepAt_lock]; rfl
  · intro known
    have hword : chkWord k.gen w x = searchUser k.gen w x := chkWord_user hs hmode
    have hknown : userCounts k.gen x w = known := userCounts_eq k.gen x w
    refine ⟨fun hno => ?_, fun q i hq hi hfirst => ?_⟩
    · rw [stepAt_eq (hword.trans (searchUser_counts (by rw [hknown]; exact hno))), stepAt_stay, hknown]
    · rw [stepAt_eq (hword.trans (searchUser_locks hq (by rw [hknown]; exact hi) (by rw [hknown]; exact hfirst))), stepAt_lock, hknown]
      rfl
  · intro wanted e one run early closure y
    have hword : chkWord k.gen w x = compareWord k.gen w x := by unfold chkWord; rw [hs]
    have hwanted : expectedWord k.gen x = wanted := by
      unfold expectedWord
      cases hdet : x.detected
      case none => exact absurd hdet hd
      all_goals simp only [wanted, hdet]
      rfl
    have herrors : bitErrors w (expectedWord k.gen x) = e := by rw [hwanted]; rfl
    have hclosure : closureOf e x.point = closure := by
      unfold closureOf
      cases ht : x.point.target
      all_goals simp only [closure, ht]
      rfl
    have hchk : compared k.gen e x = y := by
      unfold compared
      rw [pointWord_eq, hclosure]
      rfl
    rw [stepAt_eq (hword.trans (compareWord_eq k.gen w x))]
    dsimp only
    rw [herrors, hclosure, hchk]
    by_cases hrun : run < 32
    · rw [if_pos hrun, if_pos hrun]
      exact congrArg (fun es => { k with chk := y, raised := es, ctl := { k.ctl with inbox := k.ctl.inbox ++ closure } })
        (List.append_nil _)
    · rw [if_neg hrun, if_neg hrun, List.append_assoc]
      rfl

end Sys2Proof.Machine
end

section
/-! The point cycle, and the plan check (R10 to R14, R50 to R54, R97 to R102). -/

namespace Sys2Proof.Machine

-- One theorem after another: a thread for each would take the memory a check allows.
set_option Elab.async false

open Sys2Proof

variable {c : Chan} {d : Device}

/-! ### The point cycle -/

/-- A channel in DWELL, its point counting opened for the copy `p` (R38, R52). -/
def dwellOn (p : Copy) (k : Channel) : Channel :=
  { k with
    ctl := { k.ctl with task := .dwell p, timer := none }
    chk :=
      { k.chk with point := { words := 0, bits := 0, errored := 0, firstError := none, target := some (p.dwellWords, p.limit) } } }

/-- A channel that enters LOCKWAIT, and DWELL at once where its checker is LOCKED (R51). -/
def lockwaitOn (p : Copy) (k : Channel) : Channel :=
  let k1 : Channel := { k with ctl := { k.ctl with inbox := k.ctl.inbox.filter fun h => h = .signalLost, timer := none } }
  if k.chk.state = .locked then dwellOn p k1
  else
    { k1 with
      ctl := { k1.ctl with
        task := .lockwait p, timer := some { kind := .lock, left := 1000 * (forceOf k.ctl).lockTimeout.toNat } } }

theorem enterDwell_eq (c : Chan) (p : Copy) (d : Device) : enterDwell c p d = modChan c (dwellOn p) d := rfl

theorem enterLockwait_eq (c : Chan) (p : Copy) (d : Device) : enterLockwait c p d = modChan c (lockwaitOn p) d := by
  unfold enterLockwait
  dsimp only
  rw [modCtl_chan_self, enterDwell_eq]
  by_cases h : (d.chan c).chk.state = .locked
  · rw [if_pos h, modCtl, modChan_modChan]
    exact modChan_congr (by simp only [lockwaitOn, if_pos h]; rfl)
  · rw [if_neg h, modCtl, modCtl, modChan_modChan]
    exact modChan_congr (by simp only [lockwaitOn, if_neg h]; rfl)

section Rows
variable {s : State} (hheld : s.dev.held = false)
include hheld

/-- A row that takes the first happening that its checker has handed. -/
theorem fromInbox_first {waits pass : Bool} {want : Handed → Bool} {h : Handed} {l : List Handed}
    (hwant : want h = true) (hin : (s.dev.ctl c).inbox = h :: l) :
    s.act (happening (fromInbox waits want pass c))
      = .next { s with dev := takeSignal waits c h (modCtl c (fun k => { k with inbox := l }) s.dev) } := by
  have htake : takeHanded (s.dev.ctl c).task want pass (h :: l) = some (h, l) := by
    unfold takeHanded; rw [if_pos hwant]
  rw [State.act_eq, happening_running hheld]
  unfold fromInbox
  rw [hin, htake]

end Rows

/-- The end of a point whose channel has been changed beside its work. -/
theorem endPoint_after (f : Channel → Channel) (o : PointOutcome) (p : Copy) (inDwell : Bool)
    (hwork : (f (d.chan c)).ctl.task.underWay = some (p, inDwell)) (horigin : (f (d.chan c)).ctl.origin = (d.chan c).ctl.origin)
    (hforce : (f (d.chan c)).ctl.force = (d.chan c).ctl.force) :
    endPoint c o (modChan c f d) =
      let e := modChan c (fun _ => pointEnded (f (d.chan c)) p inDwell o d.time.ms) d
      if (d.chan c).ctl.origin = .track ∧ (forceOf (d.chan c).ctl).track.recordMode = .moves then afterCandidate c e else e := by
  have hf : forceOf (f (d.chan c)).ctl = forceOf (d.chan c).ctl := by unfold forceOf; rw [hforce]
  rw [endPoint_eq c o (modChan c f d) p inDwell (by rw [modChan_ctl_self]; exact hwork), modChan_ctl_self, horigin, hf,
    modChan_modChan]
  rfl

/-- Settles O45: each row by what it takes and the task it meets. -/
theorem pointCycleHappenings : Obligations.PointCycleHappenings := by
  intro c s hheld k ended left dwelling
  refine ⟨fun p e l htask hin => ?_, fun p l htask hin => ?_, fun p htask htimer => ?_, fun p l htask hin => ?_,
    fun p htask htimer => ?_, fun htask htimer => ?_⟩
  · have hphase : ((modCtl c (fun k => { k with inbox := l }) s.dev).ctl c).task.phase = .dwell := by
      rw [modCtl_ctl_self]; exact congrArg Task.phase htask
    refine (fromInbox_first hheld rfl hin).trans (next_dev ?_)
    unfold takeSignal
    exact (if_pos hphase).trans (endPoint_after _ _ p true (congrArg Task.underWay htask) rfl rfl)
  · have hphase : ((modCtl c (fun k => { k with inbox := l }) s.dev).ctl c).task.phase = .dwell := by
      rw [modCtl_ctl_self]; exact congrArg Task.phase htask
    refine (fromInbox_first hheld rfl hin).trans (next_dev ?_)
    unfold takeSignal
    exact (if_pos hphase).trans (endPoint_after _ _ p true (congrArg Task.underWay htask) rfl rfl)
  · have hexpired : expired s.dev c .lock = true := decide_eq_true htimer
    refine next_dev ((happening_running hheld).trans ?_)
    unfold takeLockTimeout
    rw [if_pos hexpired, show (s.dev.ctl c).task = _ from htask]
    exact endPoint_after _ _ p false (congrArg Task.underWay htask) rfl rfl
  · refine (fromInbox_first hheld rfl hin).trans (next_dev ?_)
    have hat : ((modCtl c (fun k => { k with inbox := l }) s.dev).ctl c).task = .lockwait p := by
      rw [modCtl_ctl_self]; exact htask
    unfold takeSignal
    simp only [hat]
    rw [enterDwell_eq, modCtl, modChan_modChan]
    exact modChan_congr rfl
  · have hexpired : expired s.dev c .settle = true := decide_eq_true htimer
    refine next_dev ((happening_running hheld).trans ?_)
    unfold takeSettle
    rw [if_pos hexpired, show (s.dev.ctl c).task = _ from htask]
    refine (enterLockwait_eq c p _).trans ?_
    rw [dropTimer, modCtl, modChan_modChan]
    exact modChan_congr rfl
  · have hexpired : expired s.dev c .settle = true := decide_eq_true htimer
    refine next_dev ((happening_running hheld).trans ?_)
    unfold takeSettle
    rw [if_pos hexpired, show (s.dev.ctl c).task = _ from htask]
    show enterWait c s.dev = _
    unfold enterWait
    exact modChan_congr rfl

/-! ### The plan check -/

theorem classLength_eq_zero (d : Device) (k : Fin 8) : classLength d k = 0 ↔ d.dwell.get k = 0 := by
  rw [classLength, ← BitVec.toNat_inj]; rfl

/-- The conditions of R11 in order, of which SKIP meets none. -/
theorem judgeEntry_eq (d : Device) (e : Entry) (prev : Option Settings) :
    judgeEntry d e prev =
      if e.skip = false ∧ settingsInRange e.settings = false then some .field
      else if e.skip = false ∧ d.dwell.get e.dwellClass = 0 then some .dwellUnset
      else if e.skip = false ∧ prev = some e.settings then some .duplicate
      else none := by
  unfold judgeEntry
  simp only [classLength_eq_zero]
  cases e.skip <;> simp

/-- One read of a plan check, by the conditions of R11 in order. -/
theorem checkRead_eq (d : Device) (w : Window) (n : Idx) (prev : Option Settings) :
    let e := readEntry d n
    let seen := if e.skip then prev else some e.settings
    checkRead d w n prev =
      if e.skip = false ∧ settingsInRange e.settings = false then .judged .field n
      else if e.skip = false ∧ d.dwell.get e.dwellClass = 0 then .judged .dwellUnset n
      else if e.skip = false ∧ prev = some e.settings then .judged .duplicate n
      else if n.val < w.last.val then .reading (idxOf (n.val + 1)) seen
      else if seen = none then .judged .empty w.last
      else .judged .pass w.last := by
  unfold checkRead
  generalize readEntry d n = e
  intro _ seen
  have hend : (if w.last.val ≤ n.val then (match seen with | none => .judged .empty w.last | some _ => .judged .pass w.last)
      else CheckProgress.reading (idxOf (n.val + 1)) seen) =
      if n.val < w.last.val then .reading (idxOf (n.val + 1)) seen
      else if seen = none then .judged .empty w.last else .judged .pass w.last := by
    by_cases hn : n.val < w.last.val
    · rw [if_pos hn, if_neg (by omega)]
    · rw [if_neg hn, if_pos (by omega)]
      cases seen <;> simp
  rw [← hend]
  dsimp only
  rw [judgeEntry_eq]
  by_cases hfield : e.skip = false ∧ settingsInRange e.settings = false
  · rw [if_pos hfield, if_pos hfield]
  rw [if_neg hfield, if_neg hfield]
  by_cases hunset : e.skip = false ∧ d.dwell.get e.dwellClass = 0
  · rw [if_pos hunset, if_pos hunset]
  rw [if_neg hunset, if_neg hunset]
  by_cases hduplicate : e.skip = false ∧ prev = some e.settings
  · rw [if_pos hduplicate, if_pos hduplicate]
  rw [if_neg hduplicate, if_neg hduplicate] <;> rfl

theorem endStatus_eq (st : LastStatus) (k : Controller) :
    endStatus st k = { k with lastStatus := if k.lastStatus = .checking then st else k.lastStatus } := by
  unfold endStatus
  by_cases h : k.lastStatus = .checking
  · rw [if_pos h, if_pos h]
  · rw [if_neg h, if_neg h]

theorem idxOf_val (i : Idx) : idxOf i.val = i := Fin.ext (Nat.mod_eq_of_lt i.isLt)

/-- The walk of a window that is in order begins at its first entry. -/
theorem startWalk_first {w : Window} (hw : (d.ctl c).window = some w) (hle : w.first.val ≤ w.last.val) :
    startWalk c w.first.val d = setTask c (.walk w.first) d := by
  unfold startWalk
  rw [hw]
  simp only [walkFrom, if_neg (Nat.not_lt.2 hle), idxOf_val]

/-- A row of a channel's request that is granted. -/
theorem channelGrant_granted {f : Device → Device} (h : granted d (reqChan c) = true) :
    channelGrant c f d = f (served (reqChan c) d) := if_pos h

/-- A grant changes nothing that an entry is read from. -/
theorem checkRead_served (r : Requester) (d : Device) (w : Window) (n : Idx) (prev : Option Settings) :
    checkRead (served r d) w n prev = checkRead d w n prev := rfl

/-- Settles O47: the judgement of an entry, the read that shows it, and the end of the check. -/
theorem planChecksJudgeTheWindow : Obligations.PlanChecksJudgeTheWindow := by
  refine ⟨checkRead_eq, fun c s w n prev hheld htask hw hg => ?_, fun c s r i hheld htask => ?_⟩
  · have hexec : exec (.planCheckRead c) s = .next { s with dev := (
        setTask c (.check (checkRead s.dev w n prev)) (showProgress c (checkRead s.dev w n prev) (served (reqChan c) s.dev))) } := by
      refine next_dev ((happening_running hheld).trans ?_)
      rw [htask]
      refine (channelGrant_granted hg).trans ?_
      unfold checkGrant
      rw [show ((served (reqChan c) s.dev).ctl c) = s.dev.ctl c from rfl, htask, hw]
      rfl
    intro show_
    rw [hexec]
    cases checkRead s.dev w n prev with
    | reading m seen =>
      refine next_dev ?_
      simp only [setTask, showProgress, modCtl, modChan_modChan]
      rfl
    | judged r i =>
      refine ⟨Config.noNextIndex s.dev.free, next_dev ?_⟩
      simp only [setTask, showProgress, modCtl, modChan_modChan]
      rfl
  · have hexec : exec (.planCheckEnd c) s = .next { s with dev := (
        if r = .pass then beginSweep c (showResult c r i s.dev) else failCheck c (showResult c r i s.dev)) } := by
      refine next_dev ((happening_running hheld).trans ?_)
      unfold takeCheckEnd
      rw [htask]
    intro told refused
    refine ⟨fun w hr hw hle => ?_, fun j w hr hprior => ?_, fun hr hno => ?_⟩
    · rw [hexec, if_pos hr]
      refine next_dev ?_
      unfold beginSweep
      rw [showResult, modCtl_ctl_self]
      simp only [hw]
      rw [startWalk_first (w := w) (by simp only [modCtl_ctl_self, endStatus_eq]; exact hw) hle]
      simp only [setTask, modCtl, modChan_modChan]
      refine modChan_congr ?_
      rw [endStatus_eq]
      rfl
    · rw [hexec, if_neg hr]
      refine next_dev ?_
      unfold failCheck
      rw [showResult, modCtl_ctl_self]
      simp only [hprior, raise, modCtl, modChan_modChan, funext (endStatus_eq .planInvalid)]
      rfl
    · rw [hexec, if_neg hr]
      refine next_dev ?_
      have hrest : failCheck c (showResult c r i s.dev)
          = raise c .cmdRefused (toRest c .idle (modCtl c (endStatus .planInvalid) (showResult c r i s.dev))) := by
        unfold failCheck
        rw [showResult, modCtl_ctl_self]
        cases hq : (s.dev.ctl c).prior with
        | none => rfl
        | some q => simp only [hno q hq]
      rw [hrest]
      simp only [showResult, toRest_eq, raise, modCtl, modChan_modChan, funext (endStatus_eq .planInvalid)]
      rfl

end Sys2Proof.Machine
end

section
/-! The fetches of a solo sweep, of a SINGLE's return and of a track (R15 to R18, R49, R60, R68, R99, R102 to R107). -/

namespace Sys2Proof.Machine

-- One theorem after another: a thread for each would take the memory a check allows.
set_option Elab.async false

open Sys2Proof

variable {c : Chan} {d : Device}

/-! ### Halts -/

theorem endingSummaryOf_length (k : Channel) (o : SweepOutcome) (cause : HaltCause) (at_ : BitVec 16) :
    (endingSummaryOf k o cause at_).length ≤ 1 := by
  unfold endingSummaryOf
  split
  · split <;> exact le_rfl
  · exact Nat.zero_le _

/-- Only an ending of two records can be cut by a host write that waits. -/
theorem endsWith_short (waits : Bool) {rs : List Record} (h : rs.length ≤ 1) (c : Chan) (k : Closing) (swept : Bool) (d : Device) :
    endsWith waits c rs k swept d = endsWith false c rs k swept d := by
  match waits, rs, h with
  | false, _, _ => rfl
  | true, [], _ => rfl
  | true, [_], _ => rfl

/-- A halt of solo work: its records and its close. -/
theorem haltChannel_eq (waits : Bool) (pt : Option Record) (cause : HaltCause) (at_ : BitVec 16) (c : Chan) (d : Device) :
    haltChannel waits pt cause at_ c d =
      endsWith waits c (pt.toList ++ endingSummaryOf (d.chan c) .halted cause at_) (.halt cause false) (sweepUnderWay (d.ctl c))
        (modCtl c (fun k => { k with selection := selectionAtEnd k }) d) := soloEnd_eq ..

theorem selectionAtEnd_noPoint {k : Controller} (h : k.task.underWay = none) : selectionAtEnd k = k.selection := by
  unfold selectionAtEnd
  rw [h]
  cases k.origin <;> rfl

/-- A halt with no point under way folds none. -/
theorem haltChannel_noPoint {waits : Bool} {pt : Option Record} {cause : HaltCause} {at_ : BitVec 16}
    (h : (d.ctl c).task.underWay = none) :
    haltChannel waits pt cause at_ c d =
      endsWith waits c (pt.toList ++ endingSummaryOf (d.chan c) .halted cause at_) (.halt cause false) (sweepUnderWay (d.ctl c)) d := by
  have hsame : modCtl c (fun k => { k with selection := selectionAtEnd k }) d = d := by
    rw [modCtl, modChan_congr (g := fun k => k), modChan_same]
    rw [selectionAtEnd_noPoint (k := (d.chan c).ctl) h]
  rw [haltChannel_eq, hsame]

/-- The halt of a fetch that failed, of a channel that keeps its part of the ending from before the grant. -/
theorem haltChannel_fetchFailed {waits : Bool} {pt : Option Record} {cause : HaltCause} {at_ : BitVec 16} {r : CheckResult} {i : Idx}
    (h : (d.ctl c).task.underWay = none) :
    haltChannel waits pt cause at_ c (showFetchFailure c r i d) =
      endsWith waits c (pt.toList ++ endingSummaryOf (d.chan c) .halted cause at_) (.halt cause false) (sweepUnderWay (d.ctl c))
        (modChan c (fetchFailed r i) d) := by
  have hchan : (showFetchFailure c r i d).chan c = fetchFailed r i (d.chan c) := by
    rw [showFetchFailure_eq, modChan_chan_self]
  have hctl : (showFetchFailure c r i d).ctl c = (fetchFailed r i (d.chan c)).ctl := congrArg Channel.ctl hchan
  rw [haltChannel_noPoint (by rw [hctl]; exact h), hchan, hctl, showFetchFailure_eq]
  rfl

/-! ### The entry that a fetch reads -/

/-- The copy of an entry that a fetch hands on (R16, R17). -/
def copyOf (d : Device) (i : Idx) (inUse : Fin 8) (e : Entry) : Copy :=
  { index := i, settings := e.settings, dwellWords := (d.dwell.get inUse).toNat * 1024,
    limit := if e.limit = 0 then none else some e.limit.toNat, tag := e.tag }

theorem validate_field {i : Idx} {k : Fin 8} {e : Entry} (h : settingsInRange e.settings = false) :
    validate d i k e = .error .field := by
  unfold validate; simp [h]

theorem validate_unset {i : Idx} {k : Fin 8} {e : Entry} (h : settingsInRange e.settings = true)
    (hw : (d.dwell.get k).toNat * 1024 = 0) : validate d i k e = .error .dwellUnset := by
  have hl : classLength d k = 0 := by unfold classLength; omega
  unfold validate; simp [h, hl]

theorem validate_ok {i : Idx} {k : Fin 8} {e : Entry} (h : settingsInRange e.settings = true)
    (hw : (d.dwell.get k).toNat * 1024 ≠ 0) : validate d i k e = .ok (copyOf d i k e) := by
  have hl : classLength d k ≠ 0 := by unfold classLength; omega
  unfold validate
  simp only [h, hl, Bool.not_true, Bool.false_eq_true, if_false]
  rfl

/-- The walk goes on past an index, or the window is done. -/
theorem startWalk_next {w : Window} (hw : (d.ctl c).window = some w) (n : Idx) :
    startWalk c (n.val + 1) d =
      if n.val < w.last.val then modCtl c (fun x => { x with task := .walk (idxOf (n.val + 1)) }) d else sweepCloses c d := by
  unfold startWalk
  rw [hw]
  by_cases hn : n.val < w.last.val
  · simp only [walkFrom, if_neg (show ¬ w.last.val < n.val + 1 by omega), if_pos hn]; rfl
  · simp only [walkFrom, if_pos (show w.last.val < n.val + 1 by omega), if_neg hn, sweepEnding_eq]

section Grants
variable {s : State} (hheld : s.dev.held = false) (hg : granted s.dev (reqChan c) = true)
include hheld hg

theorem exec_walkFetch {n : Idx} (htask : (s.dev.ctl c).task = .walk n) :
    exec (.walkFetch c) s = .next { s with dev := (
      match walkRead s.dev n with
      | .passed => startWalk c (n.val + 1) (served (reqChan c) s.dev)
      | .found (.ok p) => beginSettle c p (applyCurrent c p (served (reqChan c) s.dev))
      | .found (.error r) =>
        haltChannel (ringWriteNext c s.pending) (some (invalidPointFor (s.dev.chan c) n s.dev.time.ms)) .plan
          (s.dev.time.ms.setWidth 16) c (showFetchFailure c r n (served (reqChan c) s.dev))) } := by
  refine next_dev ((happening_running hheld).trans ?_)
  rw [htask]
  refine (channelGrant_granted hg).trans ?_
  unfold walkGrant
  rw [show ((served (reqChan c) s.dev).ctl c) = s.dev.ctl c from rfl, htask, hostWaits_eq]
  rfl

theorem exec_selectedRefetch {i : Idx} {t : BitVec 16} (htask : (s.dev.ctl c).task = .selectedRefetch i t) :
    exec (.selectedRefetch c) s = .next { s with dev := (
      match directedFetch s.dev i none with
      | .ok p => setTask c (.record (.summary (soloSummary s.dev c .selected i .none t)) (.selected true))
          (applyCurrent c p (served (reqChan c) s.dev))
      | .error r => haltChannel false none .plan t c (showFetchFailure c r i (served (reqChan c) s.dev))) } := by
  refine next_dev ((happening_running hheld).trans ?_)
  rw [htask]
  refine (channelGrant_granted hg).trans ?_
  unfold selectedGrant
  rw [show ((served (reqChan c) s.dev).ctl c) = s.dev.ctl c from rfl, htask]
  rfl

theorem exec_singleReturnFetch {i : Idx} (htask : (s.dev.ctl c).task = .singleReturn i) :
    exec (.singleReturnFetch c) s = .next { s with dev := (
      match directedFetch s.dev i none with
      | .ok p => enterApplied c (applyCurrent c p (served (reqChan c) s.dev))
      | .error r => haltChannel false none .plan (s.dev.time.ms.setWidth 16) c (showFetchFailure c r i (served (reqChan c) s.dev))) } := by
  refine next_dev ((happening_running hheld).trans ?_)
  rw [htask]
  refine (channelGrant_granted hg).trans ?_
  unfold singleGrant
  rw [show ((served (reqChan c) s.dev).ctl c) = s.dev.ctl c from rfl, htask]
  rfl

theorem exec_candidateFetch (htask : (s.dev.ctl c).task = .candidateFetch) :
    exec (.candidateFetch c) s = .next { s with dev := (
      let k := s.dev.ctl c
      let i := k.cycle.list.getD k.cycle.position 0
      match directedFetch s.dev i (some (forceOf k).track.dwellClass) with
      | .ok p => beginSettle c p (setFront c p.settings (served (reqChan c) s.dev))
      | .error r =>
        haltChannel false (if (forceOf k).track.recordMode = .all then some (invalidPointFor (s.dev.chan c) i s.dev.time.ms) else none)
          .plan (s.dev.time.ms.setWidth 16) c (showFetchFailure c r i (served (reqChan c) s.dev))) } := by
  refine next_dev ((happening_running hheld).trans ?_)
  rw [htask]
  refine (channelGrant_granted hg).trans ?_
  unfold candidateGrant
  rw [show ((served (reqChan c) s.dev).ctl c) = s.dev.ctl c from rfl]
  simp only [htask]
  rfl

theorem exec_reapplicationFetch {i : Idx} (htask : (s.dev.ctl c).task = .reapply i) :
    exec (.reapplicationFetch c) s = .next { s with dev := (
      match directedFetch s.dev i none with
      | .error r => haltChannel false none .plan (s.dev.time.ms.setWidth 16) c (showFetchFailure c r i (served (reqChan c) s.dev))
      | .ok p =>
        if (s.dev.ctl c).current = some i then afterReapply c (setFront c p.settings (served (reqChan c) s.dev))
        else
          raise c .trackMove
            (setTask c (.record (moveRecord s.dev c i) .move) (applyCurrent c p (served (reqChan c) s.dev)))) } := by
  refine next_dev ((happening_running hheld).trans ?_)
  rw [htask]
  refine (channelGrant_granted hg).trans ?_
  unfold reapplyGrant
  rw [show ((served (reqChan c) s.dev).ctl c) = s.dev.ctl c from rfl]
  simp only [htask]
  rfl

theorem exec_trackCloseFetch {i : Idx} (htask : (s.dev.ctl c).task = .closeFetch) (hcurrent : (s.dev.ctl c).current = some i) :
    exec (.trackCloseFetch c) s = .next { s with dev := (
      match directedFetch s.dev i none with
      | .ok p => enterApplied c (setFront c p.settings (served (reqChan c) s.dev))
      | .error r => haltChannel false none .plan (s.dev.time.ms.setWidth 16) c (showFetchFailure c r i (served (reqChan c) s.dev))) } := by
  refine next_dev ((happening_running hheld).trans ?_)
  rw [htask]
  refine (channelGrant_granted hg).trans ?_
  unfold closeGrant
  rw [show ((served (reqChan c) s.dev).ctl c) = s.dev.ctl c from rfl]
  simp only [htask, hcurrent]
  rfl

end Grants

/-- Settles O48: each fetch by what it finds. -/
theorem sweepFetches : Obligations.SweepFetches := by
  intro c s hheld hg k ms d fails
  have hd (b : Chan) : d.ctl b = s.dev.ctl b := rfl
  refine ⟨fun n w htask hw => ?_, fun i t htask => ?_, fun i htask ho => ?_⟩
  · intro e words p invalid
    have hread : walkRead s.dev n = if e.skip then .passed else .found (validate s.dev n e.dwellClass e) := rfl
    have hunder : (d.ctl c).task.underWay = none := congrArg Task.underWay htask
    refine ⟨fun hskip hn => ?_, fun hskip hn => ?_, fun hskip hr hwords => ?_, fun hskip hr => ?_, fun hskip hr hwords => ?_⟩
    · rw [exec_walkFetch hheld hg htask, hread, if_pos hskip]
      exact next_dev ((startWalk_next (d := d) hw n).trans (if_pos hn))
    · rw [exec_walkFetch hheld hg htask, hread, if_pos hskip]
      exact next_dev ((startWalk_next (d := d) hw n).trans (if_neg (by omega)))
    · rw [exec_walkFetch hheld hg htask, hread, if_neg (by simp [hskip]), validate_ok hr hwords]
      rfl
    · rw [exec_walkFetch hheld hg htask, hread, if_neg (by simp [hskip]), validate_field hr]
      exact next_dev (haltChannel_fetchFailed hunder)
    · rw [exec_walkFetch hheld hg htask, hread, if_neg (by simp [hskip]), validate_unset hr hwords]
      exact next_dev (haltChannel_fetchFailed hunder)
  · have hunder : (d.ctl c).task.underWay = none := congrArg Task.underWay htask
    rw [exec_selectedRefetch hheld hg htask]
    cases hf : directedFetch s.dev i none with
    | ok p =>
      refine next_dev ?_
      simp only [setTask, applyCurrent, modCtl, modChan_modChan, directedFetch_index hf]
      rfl
    | error r =>
      refine next_dev ((haltChannel_fetchFailed (d := d) hunder).trans ?_)
      exact (endsWith_short _ (endingSummaryOf_length _ _ _ _) _ _ _ _).symm
  · rw [exec_singleReturnFetch hheld hg htask]
    cases hf : directedFetch s.dev i none with
    | ok p =>
      refine next_dev ?_
      simp only [enterApplied_eq, applyCurrent, modChan_modChan, directedFetch_index hf]
      rfl
    | error r =>
      refine next_dev ((haltChannel_noSweep ?_).trans rfl)
      rw [showFetchFailure_eq, modChan_ctl_self]
      exact fun h => by rw [show (fetchFailed r i ((served (reqChan c) s.dev).chan c)).ctl.origin = k.ctl.origin from rfl, ho] at h; cases h

/-- Settles O53: each fetch by what it finds. -/
theorem trackFetches : Obligations.TrackFetches := by
  intro c s hheld hg ho k d front fails kept
  have hfails (r : CheckResult) (i : Idx) (pt : Option Record) (at_ : BitVec 16) :
      haltChannel false pt .plan at_ c (showFetchFailure c r i d) = fails pt.toList r i := by
    refine haltChannel_noSweep ?_
    rw [showFetchFailure_eq, modChan_ctl_self]
    exact fun h => by rw [show (fetchFailed r i (d.chan c)).ctl.origin = (s.dev.ctl c).origin from rfl, ho] at h; cases h
  refine ⟨fun htask => ?_, fun i j htask hcurrent => ?_, fun i htask hcurrent => ?_⟩
  · intro i
    rw [exec_candidateFetch hheld hg htask]
    cases hf : directedFetch s.dev i (some (forceOf k.ctl).track.dwellClass) with
    | ok p =>
      refine next_dev ?_
      dsimp only
      rw [show directedFetch s.dev ((s.dev.ctl c).cycle.list.getD (s.dev.ctl c).cycle.position 0)
          (some (forceOf (s.dev.ctl c)).track.dwellClass) = _ from hf]
      rfl
    | error r =>
      refine next_dev ?_
      dsimp only
      rw [show directedFetch s.dev ((s.dev.ctl c).cycle.list.getD (s.dev.ctl c).cycle.position 0)
          (some (forceOf (s.dev.ctl c)).track.dwellClass) = _ from hf]
      refine ((hfails r i _ _).trans (congrArg (fun rs => fails rs r i) ?_))
      by_cases hall : (forceOf k.ctl).track.recordMode = RecordMode.all
      · rw [if_pos hall]; exact congrArg Option.toList (if_pos hall)
      · rw [if_neg hall]; exact congrArg Option.toList (if_neg hall)
  · rw [exec_reapplicationFetch hheld hg htask]
    cases hf : directedFetch s.dev i none with
    | error r => exact next_dev (hfails r i none _)
    | ok p =>
      refine next_dev ?_
      by_cases hij : i = j
      · rw [if_pos hij]
        exact if_pos (hcurrent.trans (congrArg some hij.symm))
      · rw [if_neg hij]
        refine (if_neg fun h => hij (Option.some.inj (h.symm.trans hcurrent))).trans ?_
        simp only [raise, setTask, applyCurrent, modCtl, modChan_modChan, directedFetch_index hf, moveRecord,
          show (s.dev.ctl c).current = some j from hcurrent]
        rfl
  · rw [exec_trackCloseFetch hheld hg htask hcurrent]
    cases hf : directedFetch s.dev i none with
    | error r => exact next_dev (hfails r i none _)
    | ok p => rfl

end Sys2Proof.Machine
end

section
/-! Fills and discards, what follows a record, and the candidate list of a track (R54, R60, R68, R78 to R87, R92, R95, R97, R98, R100,
R102, R105, R122). -/

namespace Sys2Proof.Machine

-- One theorem after another: a thread for each would take the memory a check allows.
set_option Elab.async false

open Sys2Proof

variable {c : Chan} {d : Device}

/-! ### The control word that a fill writes (R76, R79, R184) -/

/-- WRAP and IRQ stand in bits 1 and 2; what the record adds begins at bit 3. -/
theorem controlWord_flags (r : Record) (wrap irq : Bool) :
    ∃ m, controlWord r wrap irq = BitVec.ofNat 16 (2 ^ 3 * m + ((if wrap then 2 else 0) + (if irq then 4 else 0))) := by
  cases r with
  | point p =>
    refine ⟨1 + 4 * recordOrigin p.origin + (if p.group then 16 else 0) + (if p.firstError.isSome then 32 else 0)
      + 64 * pointCode p.outcome, congrArg (BitVec.ofNat 16) ?_⟩
    cases p.group <;> cases p.firstError.isSome <;> simp only [if_true, Bool.false_eq_true, if_false] <;> omega
  | summary y =>
    refine ⟨2 + 4 * 1 + (if y.group then 16 else 0) + 64 * sweepCode y.outcome, congrArg (BitVec.ofNat 16) ?_⟩
    cases y.group <;> simp only [if_true, Bool.false_eq_true, if_false] <;> omega
  | move m => exact ⟨3 + 4 * 2 + 64 * 1, congrArg (BitVec.ofNat 16) (by omega)⟩

theorem controlWord_low (r : Record) (wrap irq : Bool) (j : Nat) (hj : j < 3) :
    (controlWord r wrap irq).getLsbD j = ((if wrap then 2 else 0) + (if irq then 4 else 0) : Nat).testBit j := by
  obtain ⟨m, hm⟩ := controlWord_flags r wrap irq
  have hflags : (if wrap then 2 else 0) + (if irq then 4 else 0) < 2 ^ 3 := by cases wrap <;> cases irq <;> decide
  rw [hm, BitVec.getLsbD_ofNat, Nat.testBit_two_pow_mul_add m hflags, if_pos hj, decide_eq_true (by omega), Bool.true_and]

theorem controlWord_own (r : Record) (wrap irq : Bool) : (controlWord r wrap irq).getLsbD 0 = false := by
  rw [controlWord_low r wrap irq 0 (by decide)]; cases wrap <;> cases irq <;> rfl

theorem controlWord_wrap (r : Record) (wrap irq : Bool) : (controlWord r wrap irq).getLsbD 1 = wrap := by
  rw [controlWord_low r wrap irq 1 (by decide)]; cases wrap <;> cases irq <;> rfl

theorem controlWord_irq (r : Record) (wrap irq : Bool) : (controlWord r wrap irq).getLsbD 2 = irq := by
  rw [controlWord_low r wrap irq 2 (by decide)]; cases wrap <;> cases irq <;> rfl

/-! ### The words of a descriptor after its fill (R79, R80) -/

theorem writeRecord_epoch (c : Chan) (r : Record) (d : Device) : (writeRecord c r d).epoch = d.epoch := by
  rw [writeRecord_form]; rfl

/-- A byte is told by the bytes written and by the power-on they were written after. -/
theorem ramByte_congr {x y : Device} (hram : x.ram = y.ram) (hepoch : x.epoch = y.epoch) (a : Nat) : ramByte x a = ramByte y a := by
  unfold ramByte
  rw [hram, hepoch]

/-- A fill leaves the memory of its words: the 15 of the body, and the control word. -/
theorem ramWord_writeRecord (c : Chan) (r : Record) (d : Device) (a : Nat) :
    ramWord (writeRecord c r d) a =
      ramWord (writeWord (fillAddr d c) (controlWord r (wrapFlag (fillControl d c)) (irqFlag (fillControl d c)))
        (writeWords (fillAddr d c + 2) (bodyWords r) d)) a := by
  have hepoch := congrArg Device.epoch (writeWords_eq (fillAddr d c + 2) (bodyWords r) d)
  unfold ramWord
  rw [ramByte_congr (writeRecord_ram c r d) ((writeRecord_epoch c r d).trans hepoch.symm) (a + 1),
    ramByte_congr (writeRecord_ram c r d) ((writeRecord_epoch c r d).trans hepoch.symm) a]

theorem ramWord_writeRecord_control (c : Chan) (r : Record) (d : Device) :
    ramWord (writeRecord c r d) (fillAddr d c) = controlWord r (wrapFlag (fillControl d c)) (irqFlag (fillControl d c)) := by
  rw [ramWord_writeRecord, ramWord_writeWord_self]

theorem ramWord_writeRecord_body (c : Chan) (r : Record) (d : Device) {j : Nat} (hj : j < 15) :
    ramWord (writeRecord c r d) (fillAddr d c + 2 * (j + 1)) = (bodyWords r).getD j 0 := by
  rw [ramWord_writeRecord, ramWord_writeWord_ne _ _ (by omega), show fillAddr d c + 2 * (j + 1) = fillAddr d c + 2 + 2 * j by omega,
    ramWord_writeWords _ _ _ _ (by rw [bodyWords_length]; exact hj)]

/-! ### Fill grants -/

theorem fillRecord_eq (r : Record) (a : After) (c : Chan) (d : Device) :
    fillRecord r a c d =
      if ownPart (fillControl d c) then proceed c a (writeRecord c r d)
      else if (d.chan c).config.ringPolicy = .drop then proceed c a (modChan c discarded d)
      else modChan c (fun k => { k with raised := k.raised ++ [.ringStall], ctl := { k.ctl with task := .stall r a } }) d := by
  unfold fillRecord
  cases hpolicy : (d.chan c).config.ringPolicy with
  | stall =>
    rw [if_neg (show ¬ RingPolicy.stall = RingPolicy.drop by decide)]
    simp only [raise, setTask, modCtl, modChan_modChan]
    rfl
  | drop =>
    rw [if_pos rfl, discardRecord_eq]

theorem exec_fill {s : State} {r : Record} {a : After} (hheld : s.dev.held = false) (hg : granted s.dev (reqChan c) = true)
    (htask : (s.dev.ctl c).task = .record r a) :
    exec (.fill c) s = .next { s with dev := fillRecord r a c (served (reqChan c) s.dev) } := by
  refine next_dev ((happening_running hheld).trans ?_)
  rw [htask]
  refine (channelGrant_granted hg).trans ?_
  unfold fillGrant
  rw [show ((served (reqChan c) s.dev).ctl c) = s.dev.ctl c from rfl, htask]

/-- Settles O49: the words of the descriptor one by one, then the fill by the control word that it reads. -/
theorem fillsWriteTheRecord : Obligations.FillsWriteTheRecord := by
  refine ⟨fun c r d => ?_, fun c s r a => ⟨?_, fun hheld hg htask => ?_, fun htask => ?_⟩⟩
  · have hcontrol := ramWord_writeRecord_control c r d
    intro a w t
    have hword : ramWord t a = controlWord r (w.getLsbD 1) (w.getLsbD 2) := hcontrol
    refine ⟨?_, ?_, ?_, hword, fun j hj => ramWord_writeRecord_body c r d hj, fun b hb => ramByte_writeRecord_of_outside c r d b hb, ?_⟩
    · rw [hword, controlWord_own]
    · rw [hword, controlWord_wrap]
    · rw [hword, controlWord_irq]
    · rw [show t = _ from writeRecord_form c r d]
      rfl
  · show takeTurn c (if ownPart (fillControl s.dev c) then writeRecord c r s.dev else discardRecord c s.dev) = _
    rw [discardRecord_eq]
    rfl
  · rw [exec_fill hheld hg htask, fillRecord_eq]
    rfl
  · by_cases hheld : s.dev.held = true
    · exact next_dev (happening_held hheld)
    · refine next_dev ((happening_running (Bool.eq_false_iff.mpr hheld)).trans ?_)
      rw [htask]

/-! ### What follows a record -/

theorem afterSingle_rest (h : ∀ q, (d.ctl c).prior = some q → q.applied = none) : afterSingle c d = modChan c (restedIn .idle) d := by
  unfold afterSingle
  cases hp : (d.ctl c).prior with
  | none => rfl
  | some q =>
    dsimp only
    rw [h q hp]
    rfl

theorem afterSelected_eq (solo : Bool) (c : Chan) (d : Device) :
    afterSelected solo c d =
      raise c .sweepEnd (if solo = true ∧ (forceOf (d.ctl c)).autoTrack = true ∧ isMember d c = false then enterTrack c d
        else enterApplied c d) := by
  unfold afterSelected
  have hsolo : (groupOf d c).isNone = !isMember d c := by rw [isMember_eq]; cases groupOf d c <;> rfl
  dsimp only
  rw [hsolo]
  simp only [Bool.and_eq_true, Bool.not_eq_true', and_assoc]

theorem afterReapply_eq (c : Chan) (d : Device) :
    afterReapply c d =
      if (d.ctl c).stopping = true then modChan c nowApplied d
      else if (forceOf (d.ctl c)).settleTime = 0 then enterWait c d
      else
        modCtl c (fun x =>
          { x with task := .resettle, timer := some { kind := .settle, left := (forceOf (d.ctl c)).settleTime.toNat } }) d := by
  have hzero : ((forceOf (d.ctl c)).settleTime.toNat = 0) = ((forceOf (d.ctl c)).settleTime = 0) := by
    rw [BitVec.toNat_eq]; rfl
  unfold afterReapply
  dsimp only
  rw [enterApplied_eq]
  simp only [hzero]

/-- Settles O50, by the continuation that each record names. -/
theorem workGoesOnAfterARecord : Obligations.WorkGoesOnAfterARecord := by
  intro c d k sweepEnd waiting
  refine ⟨fun hstop => ?_, fun i w hstop hcurrent hwindow => ?_, fun _ => rfl, fun solo => ?_, ?_, fun i w hprior => ?_,
    fun hprior => afterSingle_rest hprior, fun hstop => ?_, fun hstop hmore => ?_, ?_⟩
  · exact (if_pos hstop).trans (sweepEnding_eq c d)
  · have hgo : proceed c .sweepPoint d = startWalk c (i.val + 1) d := by
      show afterSweepPoint c d = _
      unfold afterSweepPoint
      dsimp only
      rw [if_neg (show ¬ (d.ctl c).stopping = true by rw [show (d.ctl c).stopping = false from hstop]; decide),
        show (d.ctl c).current = some i from hcurrent]
    rw [hgo, startWalk_next hwindow]
  · show afterSelected solo c d = _
    rw [afterSelected_eq]
    by_cases htrack : solo = true ∧ (forceOf (d.ctl c)).autoTrack = true ∧ isMember d c = false
    · rw [if_pos htrack]
      refine Eq.trans ?_ (if_pos htrack).symm
      simp only [raise, enterTrack, enterWait, modCtl, modChan_modChan]
      rfl
    · rw [if_neg htrack, enterApplied_eq]
      refine Eq.trans ?_ (if_neg htrack).symm
      simp only [raise, modChan_modChan]
      rfl
  · show raise c .sweepEnd (toRest c .idle d) = _
    simp only [toRest_eq, raise, modChan_modChan]
    rfl
  · show afterSingle c d = _
    unfold afterSingle
    rw [show (d.ctl c).prior = _ from hprior]
    rfl
  · exact if_pos hstop
  · exact (if_neg (Bool.eq_false_iff.mp hstop)).trans (if_pos hmore)
  · exact afterReapply_eq c d

/-! ### The candidate list (R98) -/

/-- The indices at a distance from the current one that pass the window and step tests. -/
def atDistance (w : Window) (anchor current stepLimit k : Nat) : List Idx :=
  (((if k ≤ current then [current - k] else []) ++ [current + k]).filter fun i =>
    inWindow w i && decide (i ≤ anchor + stepLimit) && decide (anchor ≤ i + stepLimit)).map idxOf

theorem candidates_eq (w : Window) (anchor current lookAhead stepLimit : Nat) :
    candidates w anchor current lookAhead stepLimit =
      ([1, 2, 3].filter fun k => decide (k ≤ lookAhead)).flatMap (atDistance w anchor current stepLimit) := rfl

/-- The window and the steps from the anchor, of an index to come. -/
def passesTests (w : Window) (anchor stepLimit n : Nat) : Prop :=
  w.first.val ≤ n ∧ n ≤ w.last.val ∧ n ≤ anchor + stepLimit ∧ anchor ≤ n + stepLimit

theorem passesTests_iff (w : Window) (anchor stepLimit n : Nat) :
    (inWindow w n && decide (n ≤ anchor + stepLimit) && decide (anchor ≤ n + stepLimit)) = true ↔ passesTests w anchor stepLimit n := by
  simp only [inWindow, passesTests, Bool.and_eq_true, decide_eq_true_eq, and_assoc]

/-- An index in a window is its own number. -/
theorem idxOf_passes {w : Window} {anchor stepLimit n : Nat} (h : passesTests w anchor stepLimit n) : (idxOf n).val = n :=
  Nat.mod_eq_of_lt (by have := h.2.1; have := w.last.isLt; omega)

theorem mem_atDistance (w : Window) (anchor current stepLimit k : Nat) (j : Idx) :
    j ∈ atDistance w anchor current stepLimit k ↔
      ((k ≤ current ∧ j.val = current - k) ∨ j.val = current + k) ∧ passesTests w anchor stepLimit j.val := by
  unfold atDistance
  simp only [List.mem_map, List.mem_filter, passesTests_iff, List.mem_append, List.mem_ite_nil_right, List.mem_singleton]
  constructor
  · rintro ⟨n, ⟨hn, htests⟩, rfl⟩
    rw [idxOf_passes htests]
    exact ⟨hn, htests⟩
  · rintro ⟨hj, htests⟩
    exact ⟨j.val, ⟨hj, htests⟩, idxOf_val j⟩

theorem atDistance_pairwise (w : Window) (anchor current stepLimit k : Nat) (hk : 0 < k) :
    (atDistance w anchor current stepLimit k).Pairwise fun x y => x.val < y.val := by
  unfold atDistance
  rw [List.pairwise_map, List.pairwise_filter]
  have hlt : ∀ x y : Nat, x < y → (inWindow w x && decide (x ≤ anchor + stepLimit) && decide (anchor ≤ x + stepLimit)) = true →
      (inWindow w y && decide (y ≤ anchor + stepLimit) && decide (anchor ≤ y + stepLimit)) = true → (idxOf x).val < (idxOf y).val := by
    intro x y hxy hx hy
    rw [idxOf_passes ((passesTests_iff ..).mp hx), idxOf_passes ((passesTests_iff ..).mp hy)]
    exact hxy
  by_cases hbelow : k ≤ current
  · rw [if_pos hbelow]
    exact List.pairwise_pair.mpr (hlt _ _ (by omega))
  · rw [if_neg hbelow]
    exact List.pairwise_singleton ..

/-- The candidates are the indices that pass the tests within the Look-ahead. -/
theorem mem_candidates (w : Window) (anchor : Nat) (i : Idx) (lookAhead : BitVec 2) (stepLimit : Nat) (j : Idx) :
    j ∈ candidates w anchor i.val lookAhead.toNat stepLimit ↔
      j ≠ i ∧ (j.val - i.val) + (i.val - j.val) ≤ lookAhead.toNat ∧ passesTests w anchor stepLimit j.val := by
  have hthree := lookAhead.isLt
  simp only [candidates_eq, List.mem_flatMap, List.mem_filter, decide_eq_true_eq, mem_atDistance, List.mem_cons, List.not_mem_nil,
    or_false]
  constructor
  · rintro ⟨k, ⟨hk, hle⟩, hj, htests⟩
    exact ⟨fun h => by subst h; omega, by omega, htests⟩
  · rintro ⟨hne, hle, htests⟩
    have hne' : j.val ≠ i.val := fun h => hne (Fin.ext h)
    exact ⟨(j.val - i.val) + (i.val - j.val), ⟨by omega, hle⟩, by omega, htests⟩

/-- Nearest first, and the lower first of two. -/
theorem candidates_pairwise (w : Window) (anchor current lookAhead stepLimit : Nat) :
    (candidates w anchor current lookAhead stepLimit).Pairwise fun x y =>
      (x.val - current) + (current - x.val) < (y.val - current) + (current - y.val)
        ∨ ((x.val - current) + (current - x.val) = (y.val - current) + (current - y.val) ∧ x.val < y.val) := by
  rw [candidates_eq, List.pairwise_flatMap]
  refine ⟨fun k hk => ?_, ?_⟩
  · have hpos : 0 < k := by
      have hk := List.mem_of_mem_filter hk
      simp only [List.mem_cons, List.not_mem_nil, or_false] at hk
      omega
    refine List.Pairwise.imp_of_mem ?_ (atDistance_pairwise w anchor current stepLimit k hpos)
    intro x y hx hy hlt
    have hx := ((mem_atDistance ..).mp hx).1
    have hy := ((mem_atDistance ..).mp hy).1
    omega
  · have hsorted : ([1, 2, 3].filter fun k => decide (k ≤ lookAhead)).Pairwise (· < ·) :=
      List.Pairwise.filter _ (by decide)
    refine hsorted.imp ?_
    intro k l hkl x hx y hy
    have hx := ((mem_atDistance ..).mp hx).1
    have hy := ((mem_atDistance ..).mp hy).1
    omega

/-! ### The cycle's beginning (R97, R98) -/

theorem exec_intervalTimerExpiry {s : State} {i a : Idx} {w : Window} (hheld : s.dev.held = false) (htask : (s.dev.ctl c).task = .wait)
    (htimer : (s.dev.ctl c).timer = some { kind := .interval, left := 0 }) (hcurrent : (s.dev.ctl c).current = some i)
    (hwindow : (s.dev.ctl c).window = some w) (hanchor : (s.dev.ctl c).anchor = some a) :
    let t := (forceOf (s.dev.ctl c)).track
    let todo := candidates w a.val i.val t.lookAhead.toNat t.stepLimit.toNat
    exec (.intervalTimerExpiry c) s = .next { s with dev := (
      if todo = [] then fixList c [i] (dropTimer c s.dev) else setTask c (.listing todo [i]) (dropTimer c s.dev)) } := by
  intro t todo
  refine next_dev ((happening_running hheld).trans ?_)
  unfold takeInterval
  have hexpired : expired s.dev c .interval = true := by unfold expired; rw [htimer]; rfl
  dsimp only
  rw [if_pos hexpired, htask, hcurrent, hwindow, hanchor]
  rfl

/-- Settles O52: the list of R98 by its members and its order, and each list read. -/
theorem trackCycleBegins : Obligations.TrackCycleBegins := by
  intro c s hheld k fixed
  refine ⟨fun i a w htask htimer hcurrent hwindow hanchor => ?_, fun j todo found htask hg => ?_⟩
  · intro t away
    refine ⟨candidates w a.val i.val t.lookAhead.toNat t.stepLimit.toNat, ?_, fun j => mem_candidates ..,
      candidates_pairwise ..⟩
    refine (exec_intervalTimerExpiry hheld htask htimer hcurrent hwindow hanchor).trans (next_dev ?_)
    simp only [fixList, setTask, dropTimer, modCtl, modChan_modChan]
    by_cases hnone : candidates w a.val i.val t.lookAhead.toNat t.stepLimit.toNat = []
    · rw [if_pos hnone]
      refine modChan_congr ?_
      rw [if_pos hnone]
    · rw [if_neg hnone]
      refine modChan_congr ?_
      rw [if_neg hnone]
  · intro found'
    refine next_dev ((happening_running hheld).trans ?_)
    rw [show (s.dev.ctl c).task = _ from htask]
    refine (channelGrant_granted hg).trans ?_
    unfold listGrant
    rw [show ((served (reqChan c) s.dev).ctl c) = s.dev.ctl c from rfl, show (s.dev.ctl c).task = _ from htask]
    show (if todo = [] then fixList c found' (served (reqChan c) s.dev)
      else setTask c (.listing todo found') (served (reqChan c) s.dev)) = _
    simp only [fixList, setTask, modCtl]
    by_cases hlast : todo = []
    · rw [if_pos hlast]
      refine modChan_congr ?_
      rw [if_pos hlast]
    · rw [if_neg hlast]
      refine modChan_congr ?_
      rw [if_neg hlast]

end Sys2Proof.Machine
end

section
/-! The Pace Controller's operations in the words of the statements: the end of a group's sweep, its selection, the halting condition,
the release of the barrier, an ejection and a check abandoned (R115, R120, R123, R124, R126, R127, R129, R130, R180). -/

namespace Sys2Proof.Machine

-- One theorem after another: a thread for each would take the memory a check allows.
set_option Elab.async false

open Sys2Proof

variable {c : Chan} {g : Grp} {d : Device}

theorem mem_allChans (b : Chan) : b ∈ allChans := by revert b; decide

/-! ### Changes of a group's record -/

theorem modGroup_modGroup (g : Grp) (f f' : Group → Group) (d : Device) :
    modGroup g f' (modGroup g f d) = modGroup g (fun x => f' (f x)) d := by
  simp only [modGroup, Four.get_set_self]
  congr 1
  apply Four.ext_get
  intro h
  simp only [Four.get_set]
  split <;> rfl

theorem modGroup_mapChans (g : Grp) (f : Group → Group) (h : Chan → Channel → Channel) (d : Device) :
    modGroup g f (mapChans h d) = mapChans h (modGroup g f d) := rfl

theorem modGroup_modChan (g : Grp) (f : Group → Group) (c : Chan) (h : Channel → Channel) (d : Device) :
    modGroup g f (modChan c h d) = modChan c h (modGroup g f d) := rfl

/-! ### The Pace Controller's one request (R180) -/

/-- The request depends on the arbiter and on the groups that wait, and nothing else is changed with it. -/
theorem paceRefresh_congr {e : Device} (harbiter : e.arbiter = d.arbiter) (hwaits : groupWaiting e = groupWaiting d) :
    paceRefresh e = { e with arbiter := (paceRefresh d).arbiter } := by
  have hnext : nextGroup e = nextGroup d := by simp only [nextGroup, harbiter, hwaits]
  unfold paceRefresh
  rw [harbiter, hnext]
  cases d.arbiter.paceRequest with
  | none => rfl
  | some h =>
    dsimp only
    rw [hwaits]
    split
    · rw [← harbiter]
    · rfl

/-- A change of the channels leaves the request aside. -/
theorem paceRefresh_mapChans (f : Chan → Channel → Channel) (d : Device) : paceRefresh (mapChans f d) = mapChans f (paceRefresh d) := by
  rw [paceRefresh_congr (d := d) (e := mapChans f d) rfl rfl, paceRefresh_form d]
  rfl

theorem paceRefresh_modChan (c : Chan) (f : Channel → Channel) (d : Device) : paceRefresh (modChan c f d) = modChan c f (paceRefresh d) := by
  rw [modChan_eq_mapChans, paceRefresh_mapChans, ← modChan_eq_mapChans]

/-- So does a change of a group's record that leaves its task and its halting condition. -/
theorem paceRefresh_modGroup {f : Group → Group} (htask : ∀ x, (f x).task = x.task) (hhalting : ∀ x, (f x).halting = x.halting) (g : Grp)
    (d : Device) : paceRefresh (modGroup g f d) = modGroup g f (paceRefresh d) := by
  have hwaits : groupWaiting (modGroup g f d) = groupWaiting d := by
    funext h
    unfold groupWaiting
    rw [modGroup_group]
    split
    · next hh => rw [hh, htask, hhalting]
    · rfl
  rw [paceRefresh_congr (d := d) (e := modGroup g f d) rfl hwaits, paceRefresh_form d]
  rfl

theorem nextGroup_waits {h : Grp} (hnext : nextGroup d = some h) : groupWaiting d h = true := by
  obtain ⟨k, -, hk⟩ := List.exists_of_findSome?_eq_some hnext
  dsimp only at hk
  split at hk
  · next hw => cases hk; exact hw
  · cases hk

/-- A request that stands is for a group that waits, and stands again. -/
theorem paceRefresh_paceRefresh (d : Device) : paceRefresh (paceRefresh d) = paceRefresh d := by
  have hagain : paceRefresh { d with arbiter := { d.arbiter with paceRequest := nextGroup d } } =
      { d with arbiter := { d.arbiter with paceRequest := nextGroup d } } := by
    cases hnext : nextGroup d with
    | none => exact congrArg (fun r => { d with arbiter := { d.arbiter with paceRequest := r } }) hnext
    | some h => exact if_pos (nextGroup_waits hnext)
  have hcases : paceRefresh d = d ∨ paceRefresh d = { d with arbiter := { d.arbiter with paceRequest := nextGroup d } } := by
    unfold paceRefresh
    split
    · split
      · exact .inl rfl
      · exact .inr rfl
    · exact .inr rfl
  rcases hcases with h | h
  · rw [h, h]
  · rw [h, hagain]

/-! ### The end of a group's sweep (R115, R120, R127, R129, R130) -/

/-- The members that take part are handed `m` and let their halt reports go. -/
def handedEnd (g : Grp) (m : Option GroupMessage) (members : BitVec 8) (c : Chan) (k : Channel) : Channel :=
  if inMask members c then
    { k with
      ctl :=
        { k.ctl with
          haltReport := false
          message := if k.ctl.group = some g ∧ m.isSome = true then m else k.ctl.message } }
  else k

theorem groupSweepEnds_eq (g : Grp) (o : Option SweepOutcome) (m : Option GroupMessage) (d : Device) :
    groupSweepEnds g o m d =
      let e := paceRefresh (modGroup g (groupClosed o) (mapChans (handedEnd g m (d.group g).members) d))
      if o.isSome then { e with raised := e.raised ++ [.groupEnd g] } else e := rfl

theorem handedEnd_none (g : Grp) (members : BitVec 8) :
    (fun c k => if inMask members c then { k with ctl := { k.ctl with haltReport := false } } else k) = handedEnd g none members := by
  funext c k
  unfold handedEnd
  simp only [Option.isSome_none, Bool.false_eq_true, and_false, if_false]

theorem quietClose_ends (g : Grp) (d : Device) : quietClose g d = groupSweepEnds g none none d := by
  rw [quietClose_eq, groupSweepEnds_eq, handedEnd_none]
  rfl

/-- The record closes, and GROUP_END is raised with its outcome. -/
theorem closeGroup_form (g : Grp) (o : SweepOutcome) (d : Device) :
    closeGroup g o d =
      devRaise (.groupEnd g)
        (paceRefresh (modGroup g (groupClosed (some o)) (mapChans (handedEnd g none (d.group g).members) d))) := by
  unfold closeGroup
  rw [quietClose_eq, handedEnd_none g,
    ← paceRefresh_modGroup (f := fun x => { x with lastOutcome := some o }) (fun _ => rfl) (fun _ => rfl), modGroup_modGroup]
  rfl

theorem closeGroup_ends (g : Grp) (o : SweepOutcome) (d : Device) : closeGroup g o d = groupSweepEnds g (some o) none d :=
  closeGroup_form g o d

theorem closeGroup_handAll (g : Grp) (o : SweepOutcome) (m : GroupMessage) (d : Device) :
    closeGroup g o (handAll g m d) = groupSweepEnds g (some o) (some m) d := by
  rw [closeGroup_form, groupSweepEnds_eq, handAll_eq, mapChans_group, mapChans_mapChans]
  have hmembers : (fun c k => handedEnd g none (d.group g).members c
      (if inMask (d.group g).members c = true ∧ k.ctl.group = some g then { k with ctl := { k.ctl with message := some m } } else k)) =
      handedEnd g (some m) (d.group g).members := by
    funext c k
    unfold handedEnd
    by_cases hc : inMask (d.group g).members c = true
    · by_cases hk : k.ctl.group = some g
      · simp [hc, hk]
      · simp [hc, hk]
    · simp [hc]
  rw [hmembers]
  rfl

theorem groupAbort_eq (g : Grp) (d : Device) :
    groupAbort g d = groupSweepEnds g (some .aborted) (some (.abort (figuresOf (d.group g)))) d := closeGroup_handAll ..

theorem groupHalt_eq (g : Grp) (i : Option Idx) (d : Device) :
    groupHalt g i d = groupSweepEnds g (some .halted) (some (.halt i (figuresOf (d.group g)))) d := closeGroup_handAll ..

/-! ### The halting condition (R130) -/

theorem atLead_eq {l : Chan} (hl : (d.group g).lead = some l) (f : Chan → Device → Device) : atLead g f d = f l d := by
  unfold atLead; rw [hl]

theorem finishHalting_eq (g : Grp) (d : Device) : finishHalting g d = haltedCloses g d := by
  unfold finishHalting haltedCloses
  rw [closeGroup_ends, quietClose_ends]
  rfl

theorem enterHalting_halts (g : Grp) (d : Device) : enterHalting g d = if (d.group g).state = .idle then d else groupHalts g d := by
  rw [enterHalting_eq, finishHalting_eq]; rfl

/-- Does a channel remain in the sweep of its group? -/
def remainsIn (d : Device) (g : Grp) : Prop := ∃ b, inMask (d.group g).members b = true ∧ (d.ctl b).group = some g

theorem remainsIn_iff (d : Device) (g : Grp) :
    (allChans.any fun b => inMask (d.group g).members b && (d.ctl b).group = some g) = true ↔ remainsIn d g := by
  rw [List.any_eq_true]
  refine exists_congr fun b => ?_
  rw [Bool.and_eq_true, decide_eq_true_eq]
  exact and_iff_right (mem_allChans b)

theorem haltedCloses_remaining (h : remainsIn d g) : haltedCloses g d = d := if_pos ((remainsIn_iff d g).mpr h)

theorem haltedCloses_begun (h : ¬ remainsIn d g) (hbegun : (d.group g).begun = true) :
    haltedCloses g d = groupSweepEnds g (some .halted) none d :=
  (if_neg fun ha => h ((remainsIn_iff d g).mp ha)).trans (if_pos hbegun)

theorem haltedCloses_inCheck (h : ¬ remainsIn d g) (hbegun : (d.group g).begun = false) {l : Chan} (hl : (d.group g).lead = some l) :
    haltedCloses g d =
      groupSweepEnds g none none (modCtl l (fun y => { y with planCheck := { y.planCheck with result := .abandoned, fetch := false } }) d) := by
  refine (if_neg fun ha => h ((remainsIn_iff d g).mp ha)).trans ((if_neg (Bool.eq_false_iff.mp hbegun)).trans ?_)
  rw [hl]

/-! ### The selection and the release (R121, R123, R124, R129) -/

theorem groupEnding_eq (g : Grp) (d : Device) : groupEnding g d = groupSelects g d := by
  unfold groupEnding groupSelects
  dsimp only
  cases select (figuresOf (d.group g)).policy (d.group g).selection with
  | none => exact closeGroup_handAll ..
  | some i => rfl

theorem groupWalkFrom_next {w : Window} (hw : (d.group g).window = some w) (n : Idx) :
    groupWalkFrom g (n.val + 1) d =
      if n.val < w.last.val then paceRefresh (modGroup g (fun x => { x with task := .walk (idxOf (n.val + 1)) }) d) else groupSelects g d := by
  unfold groupWalkFrom
  rw [hw]
  by_cases hn : n.val < w.last.val
  · simp only [walkFrom, if_neg (show ¬ w.last.val < n.val + 1 by omega), if_pos hn]
  · simp only [walkFrom, if_pos (show w.last.val < n.val + 1 by omega), if_neg hn, groupEnding_eq]

theorem groupWalkFrom_first {w : Window} (hw : (d.group g).window = some w) (hle : w.first.val ≤ w.last.val) :
    groupWalkFrom g w.first.val d = paceRefresh (modGroup g (fun x => { x with task := .walk w.first }) d) := by
  unfold groupWalkFrom
  rw [hw]
  simp only [walkFrom, if_neg (show ¬ w.last.val < w.first.val by omega), idxOf_val]

/-- The record of a group whose barrier is released: the point folded, At-Barrier emptied and the timer cancelled. -/
def foldedRecord (x : Group) : Group :=
  { x with selection := groupFold x, atBarrier := 0, reports := Eight.build fun _ => none, barrier := none }

/-- The record of a release, as the statements write it out. -/
theorem release_record (g : Grp) (d : Device) :
    modGroup g foldedRecord d =
      let x := d.group g
      let rs := (allChans.filter (inMask x.members)).filterMap fun b => x.reports.get b
      let usable := rs.all fun r => r.outcome = .complete
      let limit := (x.force.getD SweepConfig.default).passLimit.toNat
      modGroup g (fun z =>
        { z with
          atBarrier := 0, reports := Eight.build fun _ => none, barrier := none
          selection :=
            match x.current with
            | some i =>
              foldPoint i usable (usable && rs.all fun r => decide (r.bits ≤ limit)) (rs.map fun r => r.bits).sum
                (rs.map fun r => r.words).sum x.selection
            | none => x.selection }) d := by
  refine modGroup_congr ?_
  unfold foldedRecord groupFold presentReports
  cases (d.group g).current <;> rfl

/-- What follows a release, on the part with the point folded (R123, R129). -/
def releasedFrom (g : Grp) (x : Group) (scored : Device) : Device :=
  let goesOn :=
    mapChans (fun b k =>
      if inMask x.members b = true ∧ k.ctl.group = some g then { k with ctl := { k.ctl with task := .memberWait } } else k) scored
  if x.state = .stopping then groupSelects g scored
  else
    match x.current, x.window with
    | some i, some w =>
      if i.val < w.last.val then paceRefresh (modGroup g (fun z => { z with task := .walk (idxOf (i.val + 1)) }) goesOn)
      else groupSelects g goesOn
    | some _, none => goesOn
    | none, _ => scored

theorem barrierReleased_eq (g : Grp) (d : Device) : barrierReleased g d = releasedFrom g (d.group g) (modGroup g foldedRecord d) := by
  rw [release_record]; rfl

theorem release_eq (g : Grp) (d : Device) : release g d = barrierReleased g d := by
  have hform : release g d =
      if (d.group g).state = .stopping then groupEnding g (modGroup g foldedRecord d)
      else match (d.group g).current with
        | none => modGroup g foldedRecord d
        | some i => groupWalkFrom g (i.val + 1) (atMembers g (fun k => { k with task := .memberWait }) (modGroup g foldedRecord d)) := rfl
  have hmembers : ((modGroup g foldedRecord d).group g).members = (d.group g).members := by rw [modGroup_group_self]; rfl
  have hwindow : ∀ f, ((mapChans f (modGroup g foldedRecord d)).group g).window = (d.group g).window := by
    intro f; rw [mapChans_group, modGroup_group_self]; rfl
  rw [hform, barrierReleased_eq, atMembers_eq, hmembers, groupEnding_eq]
  unfold releasedFrom
  by_cases hstop : (d.group g).state = .stopping
  · rw [if_pos hstop]
    exact (if_pos hstop).symm
  · rw [if_neg hstop]
    refine Eq.trans ?_ (if_neg hstop).symm
    cases hcurrent : (d.group g).current with
    | none => rfl
    | some i =>
      cases hw : (d.group g).window with
      | none =>
        dsimp only
        unfold groupWalkFrom
        rw [hwindow, hw]
      | some w => exact groupWalkFrom_next ((hwindow _).trans hw) i

/-! ### Ejections (R123, R126, R130) -/

theorem all_chans (p : Chan → Bool) : allChans.all p = true ↔ ∀ b, p b = true := by
  rw [List.all_eq_true]
  exact ⟨fun h b => h b (mem_allChans b), fun h b _ => h b⟩

/-- Every member is at the barrier. -/
def allAtBarrier (x : Group) : Bool := allChans.all fun b => !inMask x.members b || inMask x.atBarrier b

theorem allAtBarrier_iff (x : Group) : allAtBarrier x = true ↔ ∀ b, inMask x.members b = true → inMask x.atBarrier b = true := by
  unfold allAtBarrier
  rw [all_chans]
  refine forall_congr' fun b => ?_
  cases inMask x.members b <;> simp

theorem mask_eq_zero_iff (m : BitVec 8) : m = 0 ↔ ∀ b, inMask m b = false := by
  constructor
  · rintro rfl b
    exact BitVec.getLsbD_zero
  · intro h
    apply BitVec.eq_of_getLsbD_eq
    intro i hi
    exact (h ⟨i, hi⟩).trans BitVec.getLsbD_zero.symm

theorem barrierFull_eq (x : Group) : barrierFull x = (x.atBarrier != 0 && allAtBarrier x) := by
  unfold barrierFull
  congr 1
  rw [Bool.eq_iff_iff, beq_iff_eq, mask_eq_zero_iff, allAtBarrier_iff]
  refine forall_congr' fun b => ?_
  rw [show inMask (x.members &&& ~~~x.atBarrier) b = (inMask x.members b && !inMask x.atBarrier b) from inMask_missing x b]
  cases inMask x.members b <;> cases inMask x.atBarrier b <;> decide

theorem afterEjection_eq (g : Grp) (d : Device) : afterEjection g d = groupGoesOn g d := by
  unfold afterEjection groupGoesOn
  dsimp only
  rw [finishHalting_eq, release_eq, barrierFull_eq]
  by_cases hhalting : (d.group g).halting = true
  · rw [if_pos hhalting, if_pos hhalting]
  rw [if_neg hhalting, if_neg hhalting]
  by_cases hempty : (d.group g).atBarrier = 0
  · rw [if_pos hempty, if_pos hempty]
  rw [if_neg hempty, if_neg hempty, show ((d.group g).atBarrier != 0) = true from bne_iff_ne.mpr hempty, Bool.true_and]
  rfl

/-- The pending record of a channel that composes none for its point. -/
theorem endingPoint_none (d : Device) (c : Chan) : (endingPoint d c none).toList = pendingPointOf (d.chan c) := by
  have hk : d.ctl c = (d.chan c).ctl := rfl
  unfold endingPoint pendingPointOf
  simp only [hk]
  cases (d.chan c).ctl.task.underWay with
  | some x =>
    obtain ⟨p, b⟩ := x
    simp only
    split <;> rfl
  | none =>
    simp only
    cases (d.chan c).ctl.task.pendingRecord with
    | none => rfl
    | some r => cases r <;> rfl

/-- The ending point record of an ejection. -/
def ejectedRecords (o : Option PointOutcome) (k : Channel) (ms : BitVec 32) : List Record :=
  match o with
  | some o => endingPointOf k o ms
  | none => pendingPointOf k

theorem endingPoint_records (d : Device) (c : Chan) (o : Option PointOutcome) :
    (endingPoint d c o).toList = ejectedRecords o (d.chan c) d.time.ms := by
  cases o with
  | none => exact endingPoint_none d c
  | some o => exact endingPoint_eq d c o

theorem haltingFrom_chan (g : Grp) (d : Device) (b : Chan) : (haltingFrom g d).chan b = d.chan b := by
  unfold haltingFrom; rw [paceRefresh_chan]; rfl

theorem haltingFrom_form (g : Grp) (d : Device) :
    haltingFrom g d =
      { modGroup g (fun y => { y with halting := true, barrier := none }) d with
        arbiter := { d.arbiter with paceRequest := (haltingFrom g d).arbiter.paceRequest } } := paceRefresh_form _

theorem haltingFrom_group (g h : Grp) (d : Device) :
    (haltingFrom g d).group h = if h = g then { d.group g with halting := true, barrier := none } else d.group h := by
  unfold haltingFrom
  rw [paceRefresh_group, modGroup_group]

theorem raiseIf_eq (b : Bool) (c : Chan) (v : ChanEvent) (d : Device) :
    raiseIf b c v d = modChan c (fun k => { k with raised := k.raised ++ if b then [v] else [] }) d := by
  cases b with
  | true => rfl
  | false =>
    refine (modChan_same c d).symm.trans (modChan_congr ?_)
    rw [if_neg (by decide), List.append_nil]

/-- The channel of an ejection once its record is made, and its group's record without it. -/
theorem ejectedOut_raises (p halts begun : Bool) (cause : HaltCause) (c : Chan) (g : Grp) (e : Device) :
    raiseIf (p && halts) c .halt
        (raiseIf (p && begun) c .sweepEnd
          (raise c .ejected
            (modGroup g (leaveRecord c)
              (if p && halts then modCtl c (fun k => { k with haltCause := cause, haltReport := false }) e
              else modCtl c (fun k => { k with haltReport := false }) e)))) =
      modChan c
        (fun y =>
          { y with
            raised := y.raised ++ ([.ejected] ++ (if p && begun then [.sweepEnd] else []) ++ (if p && halts then [.halt] else []))
            ctl := { y.ctl with haltReport := false, haltCause := if p && halts then cause else y.ctl.haltCause } })
        (modGroup g (leaveRecord c) e) := by
  have hctl : (if p && halts then modCtl c (fun k => { k with haltCause := cause, haltReport := false }) e
      else modCtl c (fun k => { k with haltReport := false }) e) =
      modCtl c (fun k => { k with haltReport := false, haltCause := if p && halts then cause else k.haltCause }) e := by
    cases p && halts <;> rfl
  rw [hctl]
  simp only [raiseIf_eq, raise, modCtl, modGroup_modChan, modChan_modChan]
  refine modChan_congr ?_
  simp only [chanRaise, List.append_assoc]

/-- An ejection in the words of the statements. -/
theorem ejectedFrom_eq (g : Grp) (o : Option PointOutcome) (st : ChanState) (cause : HaltCause) (c : Chan) (d : Device) :
    ejectedFrom g o st cause c d =
      let k := d.chan c
      let e := if k.ctl.haltReport then haltingFrom g d else d
      let part : Bool := k.ctl.group = some g
      groupGoesOn g
        (modChan c
          (fun y =>
            { y with
              raised := y.raised ++ ([.ejected] ++ (if part && (e.group g).begun then [.sweepEnd] else [])
                ++ (if part && st = .halted then [.halt] else []))
              ctl := { y.ctl with haltReport := false, haltCause := if part && st = .halted then cause else y.ctl.haltCause } })
          (modGroup g (leaveRecord c)
            (if part then modChan c (restedIn st) (writeAll c (ejectedRecords o k e.time.ms) e) else e))) := by
  cases o <;> rfl

theorem eject_eq (g : Grp) (o : Option PointOutcome) (st : ChanState) (cause : HaltCause) (c : Chan) (d : Device) :
    eject g o st cause c d = ejectedFrom g o st cause c d := by
  rw [eject_eq_afterEjection, afterEjection_eq, ejectedFrom_eq]
  refine congrArg (groupGoesOn g) ?_
  unfold ejectedOut
  dsimp only
  rw [show takesPart d g c = decide ((d.chan c).ctl.group = some g) from rfl,
    show (d.ctl c).haltReport = (d.chan c).ctl.haltReport from rfl, setHalting_eq]
  generalize he : (if (d.chan c).ctl.haltReport = true then haltingFrom g d else d) = e
  have hsame : e.chan c = d.chan c ∧ e.time = d.time ∧ (e.group g).begun = (d.group g).begun := by
    rw [← he]
    split
    · exact ⟨haltingFrom_chan g d c, by rw [haltingFrom_form]; rfl, by rw [haltingFrom_group, if_pos rfl]⟩
    · exact ⟨rfl, rfl, rfl⟩
  have hleft : ejectedChannel o st c e = modChan c (restedIn st) (writeAll c (ejectedRecords o (d.chan c) e.time.ms) e) := by
    unfold ejectedChannel
    rw [toRest_eq, endingWriteOpt_eq, endingPoint_records, hsame.1]
  rw [hleft, hsame.2.2]
  exact ejectedOut_raises ..

/-! ### A check abandoned (R120) -/

/-- A change of the members that meet a condition of their own is one change of the channels. -/
theorem forMask_if (m : BitVec 8) (P : Channel → Prop) [DecidablePred P] (f : Channel → Channel) (d : Device) :
    forMask m (fun c d => if P (d.chan c) then modChan c f d else d) d =
      mapChans (fun c k => if inMask m c = true ∧ P k then f k else k) d := by
  have hone : (fun c d => if P (d.chan c) then modChan c f d else d) = fun c : Chan => modChan c (fun k => if P k then f k else k) := by
    funext c e
    by_cases hp : P (e.chan c)
    · rw [if_pos hp]
      exact modChan_congr (if_pos hp).symm
    · rw [if_neg hp]
      exact (modChan_same c e).symm.trans (modChan_congr (if_neg hp).symm)
  rw [hone, forMask_modChan m (fun _ k => if P k then f k else k)]
  refine mapChans_congr fun c => ?_
  by_cases hc : inMask m c = true
  · simp only [hc, if_true, true_and]
  · simp only [hc, false_and, if_false, Bool.false_eq_true]

theorem abandonGroupCheck_eq (hl : (d.group g).lead = some c) : abandonGroupCheck g d = checkAbandoned g c d := by
  unfold abandonGroupCheck checkAbandoned
  dsimp only
  rw [atLead_eq hl, quietClose_ends]
  refine congrArg (groupSweepEnds g none none) ?_
  have htakes : (fun b (e : Device) => if takesPart e g b = true then toRest b .idle e else e) =
      fun b e => if (e.chan b).ctl.group = some g then modChan b (restedIn .idle) e else e := by
    funext b e
    unfold takesPart
    rw [toRest_eq]
    by_cases h : (e.ctl b).group = some g
    · rw [if_pos (decide_eq_true h)]; exact (if_pos h).symm
    · rw [if_neg (fun hd => h (of_decide_eq_true hd))]; exact (if_neg h).symm
  rw [htakes, forMask_if _ (fun k => k.ctl.group = some g)]
  rfl

end Sys2Proof.Machine
end

section
/-! STOP and ABORT of the members of a running group (R118, R120, R126 to R128). -/

namespace Sys2Proof.Machine

-- One theorem after another: a thread for each would take the memory a check allows.
set_option Elab.async false

open Sys2Proof

variable {c : Chan} {g : Grp} {d : Device}

/-! ### What a group's end leaves at a channel -/

@[simp] theorem groupSweepEnds_time (g : Grp) (o : Option SweepOutcome) (m : Option GroupMessage) (d : Device) :
    (groupSweepEnds g o m d).time = d.time := by
  rw [groupSweepEnds_eq, paceRefresh_form]
  cases o <;> rfl

theorem groupSweepEnds_chan (g : Grp) (o : Option SweepOutcome) (m : Option GroupMessage) (d : Device) (b : Chan) :
    (groupSweepEnds g o m d).chan b = handedEnd g m (d.group g).members b (d.chan b) := by
  have hchan : (paceRefresh (modGroup g (groupClosed o) (mapChans (handedEnd g m (d.group g).members) d))).chan b =
      handedEnd g m (d.group g).members b (d.chan b) := by
    rw [paceRefresh_chan, modGroup_chan, mapChans_chan]
  rw [groupSweepEnds_eq]
  cases o with
  | none => exact hchan
  | some o => exact hchan

theorem handedEnd_seq (g : Grp) (m : Option GroupMessage) (members : BitVec 8) (b : Chan) (k : Channel) :
    (handedEnd g m members b k).ctl.seq = k.ctl.seq := by
  unfold handedEnd
  split <;> rfl

/-! ### A member's own records at the end of its group's sweep (R127, R130) -/

theorem memberAborts_eq (waits : Bool) (pt : Option Record) (f : Figures) (c : Chan) (d : Device) :
    memberAborts waits pt f true c d =
      endsWith waits c (pt.toList ++ [memberSummaryOf (d.chan c) f .aborted 0 .none d.time.ms]) .abort true d := by
  unfold memberAborts
  rw [if_pos rfl, endWith_eq, memberSummary_eq]
  rfl

theorem memberHalts_eq (waits : Bool) (pt : Option Record) (cause : HaltCause) (f : Figures) (begun reports : Bool) (c : Chan)
    (d : Device) :
    memberHalts waits pt cause f begun reports c d =
      endsWith waits c (pt.toList ++ if begun then [memberSummaryOf (d.chan c) f .halted 0 cause d.time.ms] else [])
        (.halt cause reports) begun d := by
  unfold memberHalts
  rw [endWith_eq, memberSummary_eq]
  cases begun <;> rfl

/-- The summary's sequence number is the member's own, which the end of the group leaves. -/
theorem memberSummaryOf_congr {k k' : Channel} (h : k'.ctl.seq = k.ctl.seq) (f : Figures) (o : SweepOutcome) (i : Idx)
    (cause : HaltCause) (ms : BitVec 32) : memberSummaryOf k' f o i cause ms = memberSummaryOf k f o i cause ms := by
  unfold memberSummaryOf; rw [h]

theorem groupSweepEnds_summary (g : Grp) (oc : Option SweepOutcome) (m : Option GroupMessage) (c : Chan) (d : Device) (f : Figures)
    (o : SweepOutcome) (i : Idx) (cause : HaltCause) :
    memberSummaryOf ((groupSweepEnds g oc m d).chan c) f o i cause (groupSweepEnds g oc m d).time.ms =
      memberSummaryOf (d.chan c) f o i cause d.time.ms := by
  rw [groupSweepEnds_time, groupSweepEnds_chan]
  exact memberSummaryOf_congr (handedEnd_seq ..) ..

theorem leadAborts_halted (hpart : (d.ctl c).group = some g) (waits : Bool) (under : Option PointOutcome) :
    leadAborts waits g under .halted c d =
      endsWith waits c
        (ejectedRecords under (d.chan c) d.time.ms ++ [memberSummaryOf (d.chan c) (figuresOf (d.group g)) .halted 0 .signal d.time.ms])
        (.halt .signal false) true (groupSweepEnds g (some .aborted) (some (.abort (figuresOf (d.group g)))) d) := by
  unfold leadAborts
  dsimp only
  rw [if_pos (show takesPart d g c = true from decide_eq_true hpart), if_pos rfl, memberHalts_eq, endingPoint_records, groupAbort_eq,
    if_pos rfl, groupSweepEnds_summary]

theorem leadAborts_idle (hpart : (d.ctl c).group = some g) (waits : Bool) (under : Option PointOutcome) :
    leadAborts waits g under .idle c d =
      endsWith waits c
        (ejectedRecords under (d.chan c) d.time.ms ++ [memberSummaryOf (d.chan c) (figuresOf (d.group g)) .aborted 0 .none d.time.ms])
        .abort true (groupSweepEnds g (some .aborted) (some (.abort (figuresOf (d.group g)))) d) := by
  unfold leadAborts
  dsimp only
  rw [if_pos (show takesPart d g c = true from decide_eq_true hpart), if_neg (by decide), memberAborts_eq, endingPoint_records,
    groupAbort_eq, groupSweepEnds_summary]

/-- A lead that has halted already aborts the group alone. -/
theorem leadAborts_gone (hpart : (d.ctl c).group ≠ some g) (waits : Bool) (under : Option PointOutcome) (st : ChanState) :
    leadAborts waits g under st c d = groupSweepEnds g (some .aborted) (some (.abort (figuresOf (d.group g)))) d := by
  unfold leadAborts
  dsimp only
  rw [if_neg (show ¬ takesPart d g c = true from fun h => hpart (of_decide_eq_true h)), groupAbort_eq]

/-! ### A command at a member (R118) -/

/-- The copy of a point that waits is not taken before a command. -/
theorem flushGroup_noEnd (h : noEndHanded (d.ctl c)) : flushGroup c d = d := by
  unfold flushGroup
  cases hm : (d.ctl c).message with
  | none => rfl
  | some m =>
    obtain ⟨p, rfl⟩ := h m hm
    rfl

section Member
variable {s : State} (hheld : s.dev.held = false) (hstate : (s.dev.ctl c).state = .sweep) (hmsg : noEndHanded (s.dev.ctl c))
  (hg : runningGroup s.dev c = some g)
include hheld hstate hmsg hg

theorem exec_stop_member :
    exec (.stop c) s = .next { s with dev := (
      if leads s.dev g c then stopGroup g (accept 0x07 .accepted c s.dev) else refuse 0x07 .notLead c s.dev) } := by
  rw [show exec (.stop c) s = _ from exec_channelRow_running .stop c hheld,
    show takeCommand .stop c s.dev = cmdStop c (flushGroup c s.dev) from rfl, flushGroup_noEnd hmsg]
  unfold cmdStop
  rw [hstate, hg]

theorem exec_abort_member :
    exec (.abort c) s = .next { s with dev := abortMember g c (accept 0x08 .accepted c s.dev) } := by
  rw [show exec (.abort c) s = _ from exec_channelRow_running .abort c hheld,
    show takeCommand .abort c s.dev = cmdAbort c (flushGroup c s.dev) from rfl, flushGroup_noEnd hmsg]
  unfold cmdAbort
  rw [hstate, hg]

end Member

/-- An accepted command leaves what an ending's records are made of. -/
theorem accept_ejectedRecords (code : BitVec 8) (st : LastStatus) (c : Chan) (o : Option PointOutcome) (d : Device) :
    ejectedRecords o ((accept code st c d).chan c) (accept code st c d).time.ms = ejectedRecords o (d.chan c) d.time.ms := by
  rw [accept_eq, modCtl_chan_self]
  cases o <;> rfl

theorem accept_memberSummary (code : BitVec 8) (st : LastStatus) (c : Chan) (d : Device) (f : Figures) (o : SweepOutcome) (i : Idx)
    (cause : HaltCause) :
    memberSummaryOf ((accept code st c d).chan c) f o i cause (accept code st c d).time.ms = memberSummaryOf (d.chan c) f o i cause d.time.ms :=
  memberSummaryOf_congr (by rw [accept_eq, modCtl_chan_self]; rfl) ..

theorem leads_iff : leads d g c = true ↔ (d.group g).lead = some c := decide_eq_true_iff

theorem stopGroup_begun (h : (d.group g).begun = true) :
    stopGroup g d =
      modGroup g (fun y => { y with state := .stopping })
        (mapChans (fun b y =>
          if inMask (d.group g).members b = true ∧ y.ctl.group = some g then { y with ctl := { y.ctl with stopping := true } } else y) d) := by
  unfold stopGroup
  rw [if_pos h, atMembers_eq, modGroup_group_self]
  rfl

theorem stopGroup_inCheck (h : (d.group g).begun = false) (hl : (d.group g).lead = some c) : stopGroup g d = checkAbandoned g c d :=
  (if_neg (Bool.eq_false_iff.mp h)).trans (abandonGroupCheck_eq hl)

theorem abortMember_begun (h : (d.group g).begun = true) (hl : (d.group g).lead = some c) :
    abortMember g c d = leadAborts false g (some .aborted) .idle c d :=
  (if_pos (leads_iff.mpr hl)).trans (if_pos h)

theorem abortMember_inCheck (h : (d.group g).begun = false) (hl : (d.group g).lead = some c) :
    abortMember g c d = checkAbandoned g c d :=
  (if_pos (leads_iff.mpr hl)).trans ((if_neg (Bool.eq_false_iff.mp h)).trans (abandonGroupCheck_eq hl))

theorem abortMember_other (hl : (d.group g).lead ≠ some c) : abortMember g c d = ejectedFrom g (some .ejected) .idle .none c d :=
  (if_neg fun h => hl (leads_iff.mp h)).trans (eject_eq ..)

/-- Settles O55, by the part that the channel has in its group: its lead past the check, its lead in the check, or another member. -/
theorem stopAndAbortInAGroup : Obligations.StopAndAbortInAGroup := by
  intro c l g s hheld hstate hmsg hg hlead hpart x k told takesPart
  have hstop := exec_stop_member hheld hstate hmsg hg
  have habort := exec_abort_member hheld hstate hmsg hg
  have hpart' (code : BitVec 8) : ((accept code .accepted c s.dev).ctl c).group = some g := by
    rw [accept_ctl_self]; exact hpart
  refine ⟨fun hl hbegun => ⟨hstop.trans (next_dev ?_), habort.trans (next_dev ?_)⟩,
    fun hl hbegun => ⟨hstop.trans (next_dev ?_), habort.trans (next_dev ?_)⟩,
    fun hl => ⟨hstop.trans (next_dev ?_), habort.trans (next_dev ?_)⟩⟩
  · subst hl
    exact (if_pos (leads_iff.mpr hlead)).trans (stopGroup_begun hbegun)
  · subst hl
    refine (abortMember_begun (d := accept 0x08 .accepted l s.dev) hbegun hlead).trans ?_
    rw [leadAborts_idle (hpart' _), accept_ejectedRecords, accept_memberSummary]
    rfl
  · subst hl
    exact (if_pos (leads_iff.mpr hlead)).trans (stopGroup_inCheck hbegun hlead)
  · subst hl
    exact abortMember_inCheck hbegun hlead
  · exact (if_neg fun h => hl (Option.some.inj (hlead.symm.trans (leads_iff.mp h)))).trans (refuse_eq ..)
  · exact abortMember_other fun h => hl (Option.some.inj (hlead.symm.trans h))

end Sys2Proof.Machine
end

section
/-! What a member of a group's sweep takes, and commands after it (R86, R118, R121, R127, R129, R130, R141, R180). -/

namespace Sys2Proof.Machine

-- One theorem after another: a thread for each would take the memory a check allows.
set_option Elab.async false

open Sys2Proof

variable {c : Chan} {d : Device}

theorem takeAbort_eq (waits : Bool) (c : Chan) (f : Figures) (d : Device) :
    takeAbort waits c f d =
      endsWith waits c (endingPointOf (d.chan c) .aborted d.time.ms ++ [memberSummaryOf (d.chan c) f .aborted 0 .none d.time.ms]) .abort
        true d := by
  unfold takeAbort
  rw [memberAborts_eq, endingPoint_eq]

theorem takeHalt_eq (waits : Bool) (c : Chan) (i : Option Idx) (f : Figures) (d : Device) :
    takeHalt waits c i f d =
      endsWith waits c
        ((match i with | some n => [invalidPointFor (d.chan c) n d.time.ms] | none => []) ++ [memberSummaryOf (d.chan c) f .halted 0 .plan d.time.ms])
        (.halt .plan false) true d := by
  unfold takeHalt
  rw [memberHalts_eq, if_pos rfl]
  cases i <;> rfl

/-- An ending that is not cut leaves its channel with nothing handed. -/
theorem closedBy_message (k : Closing) (swept : Bool) (c : Chan) (d : Device) : ((closedBy k swept c d).ctl c).message = none := by
  unfold closedBy
  cases k <;> · rw [modChan_ctl_self]; rfl

theorem takeAbort_message (c : Chan) (f : Figures) (d : Device) : ((takeAbort false c f d).ctl c).message = none := by
  rw [takeAbort_eq, endsWith_unwaited, closedBy_message]

theorem takeHalt_message (c : Chan) (i : Option Idx) (f : Figures) (d : Device) : ((takeHalt false c i f d).ctl c).message = none := by
  rw [takeHalt_eq, endsWith_unwaited, closedBy_message]

theorem takeEnding_message (c : Chan) (p : Option Copy) (f : Figures) (d : Device) : ((takeEnding c p f d).ctl c).message = none := by
  unfold takeEnding
  cases p with
  | some p => rw [modCtl_ctl_self]
  | none => rw [modChan_ctl_self]

section Handed
variable {s : State} (hheld : s.dev.held = false)
include hheld

theorem exec_memberTakesAbort {f : Figures} (hm : (s.dev.ctl c).message = some (.abort f)) :
    exec (.memberTakesAbort c) s = .next { s with dev := takeAbort (ringWriteNext c s.pending) c f s.dev } := by
  refine next_dev ((happening_running hheld).trans ?_)
  rw [hm, hostWaits_eq]

theorem exec_memberTakesEnding {p : Option Copy} {f : Figures} (hm : (s.dev.ctl c).message = some (.ending p f)) :
    exec (.memberTakesEnding c) s = .next { s with dev := takeEnding c p f s.dev } := by
  refine next_dev ((happening_running hheld).trans ?_)
  rw [hm]

theorem exec_memberTakesHalt {i : Option Idx} {f : Figures} (hm : (s.dev.ctl c).message = some (.halt i f)) :
    exec (.memberTakesHalt c) s = .next { s with dev := takeHalt (ringWriteNext c s.pending) c i f s.dev } := by
  refine next_dev ((happening_running hheld).trans ?_)
  rw [hm, hostWaits_eq]

/-- The four commands that are taken after what a group has handed. -/
def afterHanded (k : Command) : Bool := k = .stop || k = .abort || k = .disable || k = .resetChannel

omit hheld in
/-- Such a command is taken on the part with what was handed taken. -/
theorem takeCommand_flushed {k : Command} (hk : afterHanded k = true) {e : Device} (hflush : flushGroup c s.dev = e)
    (hmsg : (e.ctl c).message = none) : takeCommand k c s.dev = takeCommand k c e := by
  have hagain : flushGroup c e = e := flushGroup_none hmsg
  cases k with
  | stop => exact congrArg (cmdStop c) (hflush.trans hagain.symm)
  | abort => exact congrArg (cmdAbort c) (hflush.trans hagain.symm)
  | disable => exact congrArg (cmdDisable c) (hflush.trans hagain.symm)
  | resetChannel => exact congrArg (cmdResetChannel c) (hflush.trans hagain.symm)
  | _ => exact absurd hk (by decide)

theorem exec_flushed {k : Command} (hk : afterHanded k = true) {e : Device} (hflush : flushGroup c s.dev = e)
    (hmsg : (e.ctl c).message = none) : exec (channelRow k c) s = exec (channelRow k c) { s with dev := e } := by
  have hheld' : e.held = false := hflush ▸ (Solo.refl c s.dev).flushGroup.held.trans hheld
  rw [exec_channelRow_running k c hheld, exec_channelRow_running k c (s := { s with dev := e }) hheld', takeCommand_flushed hk hflush hmsg]

end Handed

/-- Settles O57, message by message; a command that waits for it meets the channel that has taken it. -/
theorem membersTakeWhatTheyAreHanded : Obligations.MembersTakeWhatTheyAreHanded := by
  intro c s hheld k ms solo
  refine ⟨fun p hm => ?_, fun f hm => ?_, fun p f hm => ?_, fun f hm => ?_, fun i f hm => ?_, fun i hi hwaits => ?_⟩
  · refine next_dev ((happening_running hheld).trans ?_)
    rw [show (s.dev.ctl c).message = _ from hm]
    show takeCopy c p s.dev = _
    unfold takeCopy
    rw [beginSettle_eq]
    simp only [applyCurrent, modCtl, modChan_modChan]
  · rw [exec_memberTakesAbort hheld hm, takeAbort_eq]
  · rw [exec_memberTakesEnding hheld hm]
    refine next_dev ?_
    unfold takeEnding
    simp only [applyCurrent, modCtl, modChan_modChan]
    rfl
  · rw [exec_memberTakesEnding hheld hm]
    rfl
  · exact (exec_memberTakesHalt hheld hm).trans (next_dev (takeHalt_eq ..))
  · obtain ⟨cmd, hcmd, rfl⟩ : ∃ cmd, afterHanded cmd = true ∧ i = channelRow cmd c := by
      simp only [List.mem_cons, List.not_mem_nil, or_false] at hi
      rcases hi with rfl | rfl | rfl | rfl
      · exact ⟨.stop, rfl, rfl⟩
      · exact ⟨.abort, rfl, rfl⟩
      · exact ⟨.disable, rfl, rfl⟩
      · exact ⟨.resetChannel, rfl, rfl⟩
    refine ⟨fun ⟨f, hm⟩ => ?_, fun ⟨p, f, hm⟩ => ?_, fun ⟨n, f, hm⟩ => ?_⟩
    · refine ⟨_, exec_memberTakesAbort hheld hm, ?_⟩
      rw [hwaits]
      exact exec_flushed hheld hcmd (by unfold flushGroup; rw [show (s.dev.ctl c).message = _ from hm]) (takeAbort_message ..)
    · refine ⟨_, exec_memberTakesEnding hheld hm, ?_⟩
      exact exec_flushed hheld hcmd (by unfold flushGroup; rw [show (s.dev.ctl c).message = _ from hm]) (takeEnding_message ..)
    · refine ⟨_, exec_memberTakesHalt hheld hm, ?_⟩
      rw [hwaits]
      exact exec_flushed hheld hcmd (by unfold flushGroup; rw [show (s.dev.ctl c).message = _ from hm]) (takeHalt_message ..)

end Sys2Proof.Machine
end

section
/-! Signal lost and REFCLK loss at a solo channel and at a member of a running group (R13, R62, R65, R69, R70, R86, R107, R126, R127,
R130). -/

namespace Sys2Proof.Machine

-- One theorem after another: a thread for each would take the memory a check allows.
set_option Elab.async false

open Sys2Proof

variable {c : Chan} {g : Grp} {d : Device}

/-! ### What a signal lost counts for (R69) -/

theorem handedCounts_signalLost (t : Task) : handedCounts t .signalLost = true ↔ t.phase ≠ .none ∧ t.inCheck = false := by
  show (decide (t.phase ≠ .none) && decide (t.phase ≠ .check)) = true ↔ _
  rw [Bool.and_eq_true, decide_eq_true_eq, decide_eq_true_eq]
  exact and_congr_right fun _ => decide_eq_false_iff_not.symm

theorem sweepTask_phase {t : Task} (h : sweepTask t = true) : t.phase ≠ .none := by
  cases t with
  | idle => exact absurd h Bool.false_ne_true
  | _ => exact fun hp => nomatch hp

theorem trackTask_phase {t : Task} (h : trackTask t = true) : t.phase ≠ .none := by
  cases t with
  | idle => exact absurd h Bool.false_ne_true
  | _ => exact fun hp => nomatch hp

/-- A channel has a phase in SWEEP and in TRACK alone. -/
theorem phase_ne_none_iff {k : Controller} {front : Settings} (h : stateRule k front) :
    k.task.phase ≠ .none ↔ k.state = .sweep ∨ k.state = .track := by
  have hrest (hw : noWork k) : ¬ k.task.phase ≠ .none := by rw [hw.1]; exact fun hp => hp rfl
  unfold stateRule at h
  cases hs : k.state with
  | sweep =>
    simp only [hs] at h
    exact iff_of_true (sweepTask_phase h.1) (.inl rfl)
  | track =>
    simp only [hs] at h
    exact iff_of_true (trackTask_phase h.1) (.inr rfl)
  | off =>
    simp only [hs] at h
    exact iff_of_false (hrest h.1) (by decide)
  | idle =>
    simp only [hs] at h
    exact iff_of_false (hrest h.1) (by decide)
  | applied =>
    simp only [hs] at h
    exact iff_of_false (hrest h.1) (by decide)
  | halted =>
    simp only [hs] at h
    exact iff_of_false (hrest h.1) (by decide)

theorem takeSignal_nothing {waits : Bool} (h : handedCounts (d.ctl c).task .signalLost = false) :
    takeSignal waits c .signalLost d = d := if_neg (Bool.eq_false_iff.mp h)

theorem takeSignal_member {waits : Bool} (h : handedCounts (d.ctl c).task .signalLost = true) (hg : runningGroup d c = some g) :
    takeSignal waits c .signalLost d =
      if leads d g c then leadAborts waits g (some .signalLost) .halted c d else ejectedFrom g (some .signalLost) .halted .signal c d := by
  refine (if_pos h).trans ?_
  rw [hg, ← eject_eq]

theorem takeSignal_solo {waits : Bool} (h : handedCounts (d.ctl c).task .signalLost = true) (hg : runningGroup d c = none) :
    takeSignal waits c .signalLost d =
      haltChannel waits (endingPoint d c (some .signalLost)) .signal (stamp d) c d := by
  refine (if_pos h).trans ?_
  rw [hg]

/-- The halt of a solo channel at a loss. -/
theorem haltChannel_loss (waits : Bool) (o : PointOutcome) (cause : HaltCause) (c : Chan) (d : Device) :
    haltChannel waits (endingPoint d c (some o)) cause (stamp d) c d =
      endsWith waits c
        (endingPointOf (d.chan c) o d.time.ms ++ endingSummaryOf (d.chan c) .halted cause (d.time.ms.setWidth 16)) (.halt cause false)
        (sweepUnderWay (d.ctl c)) (modCtl c (fun x => { x with selection := selectionAtEnd x }) d) := by
  rw [haltChannel_eq, endingPoint_eq]
  rfl

/-! ### The rows -/

section Rows
variable {s : State} (hheld : s.dev.held = false)
include hheld

theorem exec_signalLost {l : List Handed} (hin : (s.dev.ctl c).inbox = .signalLost :: l) (hmsg : noEndHanded (s.dev.ctl c)) :
    exec (.signalLost c) s = .next { s with dev := (
      takeSignal (ringWriteNext c s.pending) c .signalLost (modCtl c (fun k => { k with inbox := l }) s.dev)) } := by
  have hcontains : (s.dev.ctl c).inbox.contains .signalLost = true := by rw [hin]; rfl
  have hfirst : fromInbox (ringWriteNext c s.pending) (fun h => h = .signalLost) true c s.dev =
      takeSignal (ringWriteNext c s.pending) c .signalLost (modCtl c (fun k => { k with inbox := l }) s.dev) := by
    have h := fromInbox_first (waits := ringWriteNext c s.pending) (pass := true) (want := fun h => h = .signalLost) hheld
      (decide_eq_true rfl) hin
    rw [State.act_eq, happening_running hheld] at h
    injection h with h
    exact congrArg State.dev h
  refine next_dev ((happening_running hheld).trans ((if_pos hcontains).trans ?_))
  rw [flushGroup_noEnd hmsg, hostWaits_eq, hfirst]

theorem exec_channelRefclkLoss (hloss : (s.dev.ctl c).refLoss = true) (hmsg : noEndHanded (s.dev.ctl c)) :
    exec (.channelRefclkLoss c) s = .next { s with dev := (
      takeRefLoss (ringWriteNext c s.pending) c (modCtl c (fun k => { k with refLoss := false }) s.dev)) } := by
  refine next_dev ((happening_running hheld).trans ((if_pos hloss).trans ?_))
  rw [flushGroup_noEnd hmsg, hostWaits_eq]

omit hheld in
theorem exec_channelRefclkLoss_none (hloss : (s.dev.ctl c).refLoss = false) : exec (.channelRefclkLoss c) s = .next s := by
  refine next_dev (x := happening _ s.dev) ?_
  by_cases h : s.dev.held = true
  · exact happening_held h
  · exact (happening_running (Bool.eq_false_iff.mpr h)).trans (if_neg (Bool.eq_false_iff.mp hloss))

end Rows

theorem takeRefLoss_member {waits : Bool} (hstate : (d.ctl c).state = .sweep) (hg : runningGroup d c = some g) :
    takeRefLoss waits c d =
      memberHalts waits (endingPoint d c (some .refLost)) .refclk (figuresOf (d.group g)) (d.group g).begun true c
        (modGroup g (leaveBarrier c) d) := by
  unfold takeRefLoss
  simp only [hstate, hg]

theorem takeRefLoss_rest {waits : Bool} (hstate : (d.ctl c).state = .off ∨ (d.ctl c).state = .idle ∨ (d.ctl c).state = .halted) :
    takeRefLoss waits c d = d := by
  unfold takeRefLoss
  rcases hstate with h | h | h <;> simp only [h]

theorem takeRefLoss_works {waits : Bool} (hg : runningGroup d c = none)
    (h : ((d.ctl c).state = .sweep ∨ (d.ctl c).state = .track) ∧ (d.ctl c).task.inCheck = false ∨ (d.ctl c).state = .applied) :
    takeRefLoss waits c d = haltChannel waits (endingPoint d c (some .refLost)) .refclk (stamp d) c d := by
  unfold takeRefLoss
  rcases h with ⟨hs | hs, hcheck⟩ | hs
  · simp only [hs, hg]
    rw [if_neg (Bool.eq_false_iff.mp hcheck)]
  · simp only [hs]
  · simp only [hs]

/-- A check has no point under way and no record that waits. -/
theorem inCheck_noPoint {t : Task} (h : t.inCheck = true) : t.underWay = none ∧ t.pendingRecord = none := by
  cases t with
  | check p => exact ⟨rfl, rfl⟩
  | memberCheck => exact ⟨rfl, rfl⟩
  | _ => exact absurd h Bool.false_ne_true

theorem takeRefLoss_check {waits : Bool} (hg : runningGroup d c = none) (hstate : (d.ctl c).state = .sweep)
    (hcheck : (d.ctl c).task.inCheck = true) :
    takeRefLoss waits c d = haltWith c [] .refclk false (showAbandoned c d) := by
  obtain ⟨hway, hpending⟩ := inCheck_noPoint hcheck
  have hpoint : endingPoint d c (some .refLost) = none := by
    unfold endingPoint
    simp only [hway, hpending]
  have hchan : (showAbandoned c d).ctl c =
      { d.ctl c with planCheck := { (d.ctl c).planCheck with result := .abandoned, fetch := false } } := modCtl_ctl_self c _ d
  have htask : ((showAbandoned c d).ctl c).task = (d.ctl c).task := by rw [hchan]
  have hsummary : endingSummaryOf ((showAbandoned c d).chan c) .halted .refclk (stamp d) = [] := by
    unfold endingSummaryOf
    refine if_neg fun h => ?_
    rw [show ((showAbandoned c d).chan c).ctl.task = (d.ctl c).task from htask, hcheck] at h
    exact absurd h.2 (by decide)
  have hswept : sweepUnderWay ((showAbandoned c d).ctl c) = false := by
    rw [hchan]
    unfold sweepUnderWay
    rw [hcheck]
    exact Bool.and_false _
  unfold takeRefLoss
  simp only [hstate, hg]
  rw [if_pos hcheck, haltChannel_noPoint (by rw [hchan]; exact hway), hpoint, hsummary, hswept]
  exact endsWith_short waits (rs := []) (Nat.zero_le _) ..

/-- Settles O46: a member by its part in the group, then a solo channel by its state. -/
theorem signalAndRefclkLossHalt : Obligations.SignalAndRefclkLossHalt := by
  refine ⟨fun c g s hheld hmsg hg hpart hstate => ?_, fun c s hheld hmsg hsolo hrule => ?_⟩
  · intro waits k x ms
    refine ⟨fun l hin => ?_, fun hloss => ?_⟩
    · intro d
      have hexec := exec_signalLost hheld hin hmsg
      have hchan : d.chan c = { k with ctl := { k.ctl with inbox := l } } := modCtl_chan_self ..
      have htask : (d.ctl c).task = k.ctl.task := by rw [show d.ctl c = (d.chan c).ctl from rfl, hchan]
      have hg' : runningGroup d c = some g := hg
      refine ⟨fun h => ?_, fun hphase hcheck hlead => ?_, fun hphase hcheck hlead => ?_⟩
      · refine hexec.trans (next_dev (takeSignal_nothing (d := d) (Bool.eq_false_iff.mpr fun hc => ?_)))
        rw [handedCounts_signalLost, htask] at hc
        rcases h with h | h
        · exact hc.1 h
        · rw [h] at hc; exact absurd hc.2 (by decide)
      all_goals
        have hcounts : handedCounts (d.ctl c).task .signalLost = true := by
          rw [handedCounts_signalLost, htask]; exact ⟨hphase, hcheck⟩
      · refine hexec.trans (next_dev ((takeSignal_member (d := d) hcounts hg').trans ((if_pos (leads_iff.mpr hlead)).trans ?_)))
        rw [leadAborts_halted (d := d) (by rw [modCtl_ctl_self]; exact hpart), hchan]
        rfl
      · exact hexec.trans (next_dev ((takeSignal_member (d := d) hcounts hg').trans (if_neg fun h => hlead (leads_iff.mp h))))
    · refine (exec_channelRefclkLoss hheld hloss hmsg).trans (next_dev ?_)
      refine (takeRefLoss_member (by rw [modCtl_ctl_self]; exact hstate)
        (show runningGroup (modCtl c _ s.dev) c = some g from hg)).trans ?_
      rw [memberHalts_eq, endingPoint_eq, modGroup_chan, modCtl_chan_self]
      rfl
  · intro k works halts
    have hworks : works ↔ k.ctl.task.phase ≠ .none ∧ k.ctl.task.inCheck = false := and_congr_left fun _ => (phase_ne_none_iff hrule.1).symm
    have hmsg' : noEndHanded (s.dev.ctl c) := fun m hm => by rw [hmsg] at hm; cases hm
    refine ⟨fun l hin => ?_, fun hloss => ?_, exec_channelRefclkLoss_none⟩
    · intro d
      have hexec := exec_signalLost hheld hin hmsg'
      have hchan : d.chan c = { k with ctl := { k.ctl with inbox := l } } := modCtl_chan_self ..
      have htask : (d.ctl c).task = k.ctl.task := by rw [show d.ctl c = (d.chan c).ctl from rfl, hchan]
      have hcounts : handedCounts (d.ctl c).task .signalLost = true ↔ works := by rw [handedCounts_signalLost, htask, hworks]
      refine ⟨fun h => hexec.trans (next_dev ((takeSignal_solo (d := d) (hcounts.mpr h) hsolo).trans ?_)),
        fun h => hexec.trans (next_dev (takeSignal_nothing (d := d) (Bool.eq_false_iff.mpr fun hc => h (hcounts.mp hc))))⟩
      have hselection : modCtl c (fun x => { x with selection := selectionAtEnd x }) d =
          modCtl c (fun x => { x with selection := selectionAtEnd k.ctl }) d := modChan_congr (by rw [hchan]; rfl)
      rw [haltChannel_loss, hchan, hselection, show d.ctl c = (d.chan c).ctl from rfl, hchan]
      rfl
    · intro d
      have hexec := exec_channelRefclkLoss hheld hloss hmsg'
      have hctl : d.ctl c = { k.ctl with refLoss := false } := modCtl_ctl_self ..
      refine ⟨fun h => hexec.trans (next_dev ((takeRefLoss_works (d := d) hsolo (by rw [hctl]; exact h)).trans ?_)),
        fun hs hcheck => hexec.trans (next_dev (takeRefLoss_check (d := d) hsolo (by rw [hctl]; exact hs) (by rw [hctl]; exact hcheck))),
        fun h => hexec.trans (next_dev (takeRefLoss_rest (d := d) (by rw [hctl]; exact h)))⟩
      have hchan : d.chan c = { k with ctl := { k.ctl with refLoss := false } } := modCtl_chan_self ..
      have hselection : modCtl c (fun x => { x with selection := selectionAtEnd x }) d =
          modCtl c (fun x => { x with selection := selectionAtEnd k.ctl }) d := modChan_congr (by rw [hchan]; rfl)
      rw [haltChannel_loss, hchan, hselection, show d.ctl c = (d.chan c).ctl from rfl, hchan]
      rfl

end Sys2Proof.Machine
end

section
/-! The Pace Controller's grants for a group and the end of its check (R14, R18, R120, R121, R129, R130, R180). -/

namespace Sys2Proof.Machine

-- One theorem after another: a thread for each would take the memory a check allows.
set_option Elab.async false

open Sys2Proof

variable {c : Chan} {g : Grp} {d : Device}

/-! ### Grants (R180) -/

theorem paceGrant_granted {f : Device → Device} (hg : granted d reqPace = true) (hp : d.arbiter.paceRequest = some g) :
    paceGrant g f d = paceRefresh (f (servedGroup g d)) := by
  unfold paceGrant
  rw [hg, hp]
  exact if_pos (Bool.and_eq_true_iff.mpr ⟨rfl, decide_eq_true rfl⟩)

section Grants
variable {s : State} (hheld : s.dev.held = false) (hg : granted s.dev reqPace = true) (hp : s.dev.arbiter.paceRequest = some g)
include hheld hg hp

theorem exec_groupCheckRead {n : Idx} {prev : Option Settings} (htask : (s.dev.group g).task = .check (.reading n prev)) :
    exec (.groupCheckRead g) s = .next { s with dev := paceRefresh (groupCheckGrant g (servedGroup g s.dev)) } := by
  refine next_dev ((happening_running hheld).trans ?_)
  rw [htask]
  exact paceGrant_granted hg hp

theorem exec_groupWalkFetch {n : Idx} (htask : (s.dev.group g).task = .walk n) :
    exec (.groupWalkFetch g) s = .next { s with dev := paceRefresh (groupWalkGrant g (servedGroup g s.dev)) } := by
  refine next_dev ((happening_running hheld).trans ?_)
  rw [htask]
  exact paceGrant_granted hg hp

theorem exec_groupSelectedRefetch {i : Idx} (htask : (s.dev.group g).task = .selectedRefetch i) :
    exec (.groupSelectedRefetch g) s = .next { s with dev := paceRefresh (groupSelectedGrant g (servedGroup g s.dev)) } := by
  refine next_dev ((happening_running hheld).trans ?_)
  rw [htask]
  exact paceGrant_granted hg hp

end Grants

/-! ### Check reads (R14, R120) -/

theorem groupCheckGrant_eq {n : Idx} {prev : Option Settings} {w : Window} (hl : (d.group g).lead = some c)
    (htask : (d.group g).task = .check (.reading n prev)) (hw : (d.group g).window = some w) :
    groupCheckGrant g d =
      modGroup g (fun x => { x with task := .check (checkRead d w n prev) }) (showProgress c (checkRead d w n prev) d) := by
  unfold groupCheckGrant
  rw [htask, hw]
  dsimp only
  rw [atLead_eq hl]

/-! ### The walk (R121, R130) -/

theorem groupWalkGrant_skip {n : Idx} (htask : (d.group g).task = .walk n) (hs : (readEntry d n).skip = true) :
    groupWalkGrant g d = groupWalkFrom g (n.val + 1) d := by
  have hread : walkRead d n = .passed := if_pos hs
  unfold groupWalkGrant
  rw [htask]
  dsimp only
  rw [hread]

theorem groupWalkGrant_found {n : Idx} {p : Copy} (htask : (d.group g).task = .walk n) (hs : (readEntry d n).skip = false)
    (hv : validate d n (readEntry d n).dwellClass (readEntry d n) = .ok p) :
    groupWalkGrant g d = handAll g (.copy p) (modGroup g (fun x => { x with current := some p.index, task := .point }) d) := by
  have hread : walkRead d n = .found (.ok p) := (if_neg (Bool.eq_false_iff.mp hs)).trans (congrArg WalkRead.found hv)
  unfold groupWalkGrant
  rw [htask]
  dsimp only
  rw [hread]

theorem groupWalkGrant_fails {n : Idx} {r : CheckResult} (hl : (d.group g).lead = some c) (htask : (d.group g).task = .walk n)
    (hs : (readEntry d n).skip = false) (hv : validate d n (readEntry d n).dwellClass (readEntry d n) = .error r) :
    groupWalkGrant g d =
      groupSweepEnds g (some .halted) (some (.halt (some n) (figuresOf (d.group g)))) (modChan c (fetchFailed r n) d) := by
  have hread : walkRead d n = .found (.error r) := (if_neg (Bool.eq_false_iff.mp hs)).trans (congrArg WalkRead.found hv)
  unfold groupWalkGrant
  rw [htask]
  dsimp only
  rw [hread]
  dsimp only
  rw [atLead_eq hl, groupHalt_eq]
  rfl

/-! ### The selected re-fetch (R129, R130) -/

theorem groupSelectedGrant_ok {i : Idx} {p : Copy} (htask : (d.group g).task = .selectedRefetch i) (hf : directedFetch d i none = .ok p) :
    groupSelectedGrant g d = groupSweepEnds g (some .selected) (some (.ending (some p) (figuresOf (d.group g)))) d := by
  unfold groupSelectedGrant
  rw [htask]
  dsimp only
  rw [hf]
  exact closeGroup_handAll ..

theorem groupSelectedGrant_fails {i : Idx} {r : CheckResult} (hl : (d.group g).lead = some c)
    (htask : (d.group g).task = .selectedRefetch i) (hf : directedFetch d i none = .error r) :
    groupSelectedGrant g d =
      groupSweepEnds g (some .halted) (some (.halt none (figuresOf (d.group g)))) (modChan c (fetchFailed r i) d) := by
  unfold groupSelectedGrant
  rw [htask]
  dsimp only
  rw [hf]
  dsimp only
  rw [atLead_eq hl, groupHalt_eq]
  rfl

/-! ### The check's end (R120) -/

/-- Is a member still in the check of its group? -/
def stillInCheck (g : Grp) (k : Channel) : Prop := k.ctl.group = some g ∧ k.ctl.task = .memberCheck

theorem inGroupCheck_iff (d : Device) (g : Grp) (b : Chan) : inGroupCheck d g b = true ↔ stillInCheck g (d.chan b) := by
  unfold inGroupCheck takesPart
  rw [Bool.and_eq_true, decide_eq_true_eq, decide_eq_true_eq]
  rfl

/-- A change of the members still in the check. -/
theorem forMask_inGroupCheck (g : Grp) (m : BitVec 8) (f : Channel → Channel) (d : Device) :
    forMask m (fun b e => if inGroupCheck e g b then modChan b f e else e) d =
      mapChans (fun b k => if inMask m b = true ∧ k.ctl.group = some g ∧ k.ctl.task = .memberCheck then f k else k) d := by
  have hsame : (fun b e => if inGroupCheck e g b then modChan b f e else e) =
      fun b e => if (e.chan b).ctl.group = some g ∧ (e.chan b).ctl.task = .memberCheck then modChan b f e else e := by
    funext b e
    exact if_congr (inGroupCheck_iff e g b) rfl rfl
  rw [hsame, forMask_if m (fun k => k.ctl.group = some g ∧ k.ctl.task = .memberCheck)]

theorem takeGroupCheckEnd_eq {r : CheckResult} {i : Idx} (hl : (d.group g).lead = some c) (htask : (d.group g).task = .check (.judged r i))
    (hhalting : (d.group g).halting = false) :
    takeGroupCheckEnd g d = if r = .pass then beginGroupSweep g (showResult c r i d) else failGroupCheck g (showResult c r i d) := by
  unfold takeGroupCheckEnd
  rw [htask]
  dsimp only
  rw [if_neg (Bool.eq_false_iff.mp hhalting), atLead_eq hl]

theorem beginGroupSweep_eq {w : Window} (hl : (d.group g).lead = some c) (hw : (d.group g).window = some w)
    (hle : w.first.val ≤ w.last.val) :
    beginGroupSweep g d =
      paceRefresh (modGroup g (fun y => { y with begun := true, task := .walk w.first })
        (mapChans (fun b y =>
          if inMask (d.group g).members b = true ∧ y.ctl.group = some g ∧ y.ctl.task = .memberCheck then
            { y with ctl := { y.ctl with seq := y.ctl.seq + 1, stopping := false, task := .memberWait } }
          else y) (modCtl c (endStatus .accepted) d))) := by
  unfold beginGroupSweep
  dsimp only
  rw [hw, atLead_eq hl]
  dsimp only
  rw [show (fun (b : Chan) (e : Device) =>
        if inGroupCheck e g b then modCtl b (fun k => { k with seq := k.seq + 1, stopping := false, task := .memberWait }) e else e) =
      fun b e => if inGroupCheck e g b then
        modChan b (fun y => { y with ctl := { y.ctl with seq := y.ctl.seq + 1, stopping := false, task := .memberWait } }) e else e from rfl,
    forMask_inGroupCheck, groupWalkFrom_first (w := w) (by rw [mapChans_group, modGroup_group_self]; exact hw) hle, modGroup_mapChans,
    modGroup_modGroup, modGroup_group_self]
  rfl

theorem failGroupCheck_eq (hl : (d.group g).lead = some c) :
    failGroupCheck g d =
      groupSweepEnds g none none
        (mapChans (fun b y =>
          if inMask (d.group g).members b = true ∧ y.ctl.group = some g ∧ y.ctl.task = .memberCheck then restedIn .idle y else y)
          (modChan c (fun y => { y with raised := y.raised ++ [.cmdRefused] }) (modCtl c (endStatus .planInvalid) d))) := by
  unfold failGroupCheck
  dsimp only
  rw [atLead_eq hl, quietClose_ends]
  refine congrArg (groupSweepEnds g none none) ?_
  simp only [toRest_eq]
  rw [forMask_inGroupCheck]
  rfl

/-- Settles O56: each grant by what the Pace Controller works at, then the check's end. -/
theorem paceControllerGrants : Obligations.PaceControllerGrants := by
  intro g c s hheld hl x figures taking d grant failsAt
  refine ⟨fun n prev w hgrant htask hw => ?_, fun r i w htask hhalting hw hle => ?_, fun n w hgrant htask hw => ?_,
    fun i hgrant htask => ?_⟩
  · intro shown
    have hexec := exec_groupCheckRead hheld hgrant.1 hgrant.2 htask
    rw [groupCheckGrant_eq (d := servedGroup g s.dev) hl htask hw,
      show checkRead (servedGroup g s.dev) w n prev = checkRead s.dev w n prev from rfl] at hexec
    cases hread : checkRead s.dev w n prev with
    | reading m seen =>
      rw [hread] at hexec
      exact hexec
    | judged r i =>
      rw [hread] at hexec
      exact ⟨_, hexec⟩
  · intro told inCheck
    have htold (st : LastStatus) : modCtl c (endStatus st) (showResult c r i s.dev) = told st := by
      unfold showResult
      simp only [modCtl, modChan_modChan]
      refine modChan_congr ?_
      rw [endStatus_eq]
    refine next_dev ((happening_running hheld).trans ((takeGroupCheckEnd_eq hl htask hhalting).trans ?_))
    by_cases hr : r = .pass
    · rw [if_pos hr, if_pos hr, beginGroupSweep_eq (d := showResult c r i s.dev) hl hw (hle hr), htold]
      rfl
    · rw [if_neg hr, if_neg hr, failGroupCheck_eq (d := showResult c r i s.dev) hl, htold]
      rfl
  · intro e words p
    have hexec := exec_groupWalkFetch hheld hgrant.1 hgrant.2 htask
    refine ⟨fun hs hlt => ?_, fun hs hle => ?_, fun hs hf hwords => ?_, fun hs hf => ?_, fun hs hf hwords => ?_⟩
    · rw [groupWalkGrant_skip (d := servedGroup g s.dev) htask hs, groupWalkFrom_next (d := servedGroup g s.dev) hw, if_pos hlt,
        paceRefresh_paceRefresh] at hexec
      exact hexec
    · rw [groupWalkGrant_skip (d := servedGroup g s.dev) htask hs, groupWalkFrom_next (d := servedGroup g s.dev) hw,
        if_neg (by omega)] at hexec
      exact hexec
    · rw [groupWalkGrant_found (d := servedGroup g s.dev) htask hs (validate_ok hf hwords), handAll_eq, modGroup_group_self] at hexec
      exact hexec
    · rw [groupWalkGrant_fails (d := servedGroup g s.dev) hl htask hs (validate_field hf)] at hexec
      exact hexec
    · rw [groupWalkGrant_fails (d := servedGroup g s.dev) hl htask hs (validate_unset hf hwords)] at hexec
      exact hexec
  · have hexec := exec_groupSelectedRefetch hheld hgrant.1 hgrant.2 htask
    cases hf : directedFetch s.dev i none with
    | ok p =>
      rw [groupSelectedGrant_ok (d := servedGroup g s.dev) htask hf] at hexec
      exact hexec
    | error r =>
      rw [groupSelectedGrant_fails (d := servedGroup g s.dev) hl htask hf] at hexec
      exact hexec

end Sys2Proof.Machine
end

section
/-! The barrier and its timer; a halting group and its closing (R123 to R126, R130). -/

namespace Sys2Proof.Machine

-- One theorem after another: a thread for each would take the memory a check allows.
set_option Elab.async false

open Sys2Proof

variable {c : Chan} {g : Grp} {d : Device}

/-! ### Reports (R123) -/

/-- A group's record once a member has joined the barrier, as the statements write it. -/
theorem addReport_eq (c : Chan) (r : Report) (x : Group) :
    addReport c r x =
      { x with
        atBarrier := x.atBarrier ||| BitVec.ofNat 8 (2 ^ c.val), reports := x.reports.set c (some r)
        barrier := if x.atBarrier = 0 ∧ x.barrier = none ∧ x.halting = false then some (1000 * x.barrierTimeout.toNat) else x.barrier } := by
  have hcond : (x.atBarrier = 0 && x.barrier.isNone && !x.halting) = true ↔ x.atBarrier = 0 ∧ x.barrier = none ∧ x.halting = false := by
    simp only [Bool.and_eq_true, decide_eq_true_eq, Option.isNone_iff_eq_none, Bool.not_eq_true', and_assoc]
  unfold addReport
  rw [if_congr hcond rfl rfl]
  rfl

/-- A barrier that a member has just joined is not empty. -/
theorem joined_ne_zero (m : BitVec 8) (c : Chan) : m ||| BitVec.ofNat 8 (2 ^ c.val) ≠ 0 := by
  intro h
  have hbit := congrArg (fun v : BitVec 8 => v.getLsbD c.val) h
  have hc : ∀ b : Chan, (BitVec.ofNat 8 (2 ^ b.val)).getLsbD b.val = true := by decide
  simp only [BitVec.getLsbD_or, hc, Bool.or_true] at hbit
  exact absurd hbit (by simp)

theorem takeReport_discarded {r : Report} (hr : (d.ctl c).report = some r) (hg : (d.ctl c).group = some g)
    (h : ¬ ((d.group g).task = .point ∧ inMask (d.group g).members c = true)) :
    takeReport c d = modCtl c (fun k => { k with report := none }) d := by
  unfold takeReport
  rw [hr, hg]
  exact if_neg h

theorem takeReport_joins {r : Report} (hr : (d.ctl c).report = some r) (hg : (d.ctl c).group = some g)
    (h : (d.group g).task = .point ∧ inMask (d.group g).members c = true) :
    takeReport c d =
      let joined := modGroup g (addReport c r) (modCtl c (fun k => { k with report := none }) d)
      if (d.group g).halting = false ∧ allAtBarrier (addReport c r (d.group g)) = true then barrierReleased g joined else joined := by
  have hfull : (!(d.group g).halting && barrierFull (addReport c r (d.group g))) = true ↔
      (d.group g).halting = false ∧ allAtBarrier (addReport c r (d.group g)) = true := by
    have hne : ((addReport c r (d.group g)).atBarrier != 0) = true := bne_iff_ne.mpr (joined_ne_zero _ _)
    rw [barrierFull_eq, hne, Bool.true_and, Bool.and_eq_true, Bool.not_eq_true']
  unfold takeReport
  rw [hr, hg]
  refine (if_pos h).trans ?_
  dsimp only
  rw [modGroup_group_self, modCtl_group, release_eq]
  exact if_congr hfull rfl rfl

/-! ### The halting condition, of every running group (R130, R164) -/

/-- What REFCLK loss makes of a group: nothing where it is IDLE. -/
def haltsAt (g : Grp) (d : Device) : Device := if (d.group g).state = .idle then d else groupHalts g d

theorem enterHalting_haltsAt : enterHalting = haltsAt := by
  funext g d
  exact enterHalting_halts g d

theorem remainsIn_congr {e : Device} (hm : (e.group g).members = (d.group g).members) (hc : ∀ b, (e.ctl b).group = (d.ctl b).group) :
    remainsIn e g ↔ remainsIn d g := by
  unfold remainsIn
  rw [hm]
  exact exists_congr fun b => by rw [hc]

theorem remainsIn_haltingFrom : remainsIn (haltingFrom g d) g ↔ remainsIn d g := by
  refine remainsIn_congr ?_ fun b => ?_
  · rw [haltingFrom_group, if_pos rfl]
  · exact congrArg (fun k : Channel => k.ctl.group) (haltingFrom_chan g d b)

theorem groupHalts_remaining (h : remainsIn d g) : groupHalts g d = haltingFrom g d :=
  haltedCloses_remaining (remainsIn_haltingFrom.mpr h)

theorem groupHalts_begun (h : ¬ remainsIn d g) (hbegun : (d.group g).begun = true) :
    groupHalts g d = groupSweepEnds g (some .halted) none (haltingFrom g d) :=
  haltedCloses_begun (fun hr => h (remainsIn_haltingFrom.mp hr)) (by rw [haltingFrom_group, if_pos rfl]; exact hbegun)

theorem groupHalts_inCheck (h : ¬ remainsIn d g) (hbegun : (d.group g).begun = false) {l : Chan} (hl : (d.group g).lead = some l) :
    groupHalts g d =
      groupSweepEnds g none none
        (modCtl l (fun y => { y with planCheck := { y.planCheck with result := .abandoned, fetch := false } }) (haltingFrom g d)) :=
  haltedCloses_inCheck (fun hr => h (remainsIn_haltingFrom.mp hr)) (by rw [haltingFrom_group, if_pos rfl]; exact hbegun)
    (by rw [haltingFrom_group, if_pos rfl]; exact hl)

/-- A group's record in its halting condition; one that is IDLE is left as it is. -/
def haltedRecord (x : Group) : Group := if x.state = .idle then x else { x with halting := true, barrier := none }

/-- The part `e` is the part `d` but for the halting condition of the groups that `P` names. -/
structure HaltedFor (P : Grp → Prop) [DecidablePred P] (d e : Device) : Prop where
  rest : { e with groups := d.groups, arbiter := d.arbiter } = d
  arbiter : { e.arbiter with paceRequest := d.arbiter.paceRequest } = d.arbiter
  group : ∀ g, e.group g = if P g then haltedRecord (d.group g) else d.group g

/-- One more group halts, where a member of each running group remains in its sweep. -/
theorem HaltedFor.haltsAt {P : Grp → Prop} [DecidablePred P] {e : Device} (h : HaltedFor P d e) {g : Grp} (hg : ¬ P g)
    (hremains : (d.group g).state ≠ .idle → remainsIn d g) : HaltedFor (fun k => P k ∨ k = g) d (haltsAt g e) := by
  have hsame : e.group g = d.group g := (h.group g).trans (if_neg hg)
  have hgroup (f : Device) (hf : f.group g = haltedRecord (d.group g)) (hne : ∀ k, k ≠ g → f.group k = e.group k) (k : Grp) :
      f.group k = if P k ∨ k = g then haltedRecord (d.group k) else d.group k := by
    by_cases hk : k = g
    · rw [hk, if_pos (.inr rfl)]; exact hf
    · rw [hne k hk, h.group k]
      exact if_congr (or_iff_left hk).symm rfl rfl
  unfold Machine.haltsAt
  by_cases hidle : (e.group g).state = .idle
  · rw [if_pos hidle]
    refine ⟨h.rest, h.arbiter, hgroup e ?_ fun k _ => rfl⟩
    rw [hsame] at hidle ⊢
    exact (if_pos hidle).symm
  · rw [if_neg hidle]
    have hchans : e.chans = d.chans := by
      have hrest := congrArg Device.chans h.rest
      exact hrest
    have hremains' : remainsIn e g := by
      refine (remainsIn_congr (d := d) (congrArg Group.members hsame) fun b => ?_).mpr (hremains (by rwa [← hsame]))
      simp only [Device.ctl, hchans]
    rw [groupHalts_remaining hremains']
    refine ⟨?_, ?_, hgroup _ ?_ fun k hk => ?_⟩
    · rw [haltingFrom_form]; exact h.rest
    · rw [haltingFrom_form]; exact h.arbiter
    · rw [haltingFrom_group, if_pos rfl]
      rw [hsame] at hidle ⊢
      exact (if_neg hidle).symm
    · rw [haltingFrom_group, if_neg hk]

theorem HaltedFor.congr {P Q : Grp → Prop} [DecidablePred P] [DecidablePred Q] {e : Device} (h : HaltedFor P d e) (hpq : ∀ g, P g ↔ Q g) :
    HaltedFor Q d e := ⟨h.rest, h.arbiter, fun g => (h.group g).trans (if_congr (hpq g) rfl rfl)⟩

/-- All four groups, where a member of each running group remains in its sweep. -/
theorem haltsAt_all (hremains : ∀ h, (d.group h).state ≠ .idle → remainsIn d h) :
    ∃ e, haltsAt 3 (haltsAt 2 (haltsAt 1 (haltsAt 0 d))) = e ∧ HaltedFor (fun _ => True) d e := by
  have hstart : HaltedFor (fun _ => False) d d := ⟨rfl, rfl, fun h => (if_neg not_false).symm⟩
  have hall := (((hstart.haltsAt (g := 0) not_false (hremains 0)).haltsAt (g := 1) (by decide) (hremains 1)).haltsAt (g := 2)
    (by decide) (hremains 2)).haltsAt (g := 3) (by decide) (hremains 3)
  exact ⟨_, rfl, hall.congr (by decide)⟩

theorem forGroups_eq (f : Grp → Device → Device) (d : Device) : forGroups f d = f 3 (f 2 (f 1 (f 0 d))) := rfl

theorem exec_groupRefclkLoss {s : State} (hheld : s.dev.held = false) (hloss : s.dev.groupRefLoss = true) :
    exec .groupRefclkLoss s =
      .next { s with dev := haltsAt 3 (haltsAt 2 (haltsAt 1 (haltsAt 0 { s.dev with groupRefLoss := false }))) } := by
  refine next_dev ((happening_running hheld).trans ((if_pos hloss).trans ?_))
  rw [enterHalting_haltsAt, forGroups_eq]

/-! ### Halt reports (R130) -/

theorem takeHaltReport_solo (h : (d.ctl c).haltReport = true) (hg : runningGroup d c = none) :
    takeHaltReport c d = modCtl c (fun k => { k with haltReport := false }) d := by
  refine (if_pos h).trans ?_
  rw [hg]

theorem takeHaltReport_member (h : (d.ctl c).haltReport = true) (hg : runningGroup d c = some g) :
    takeHaltReport c d = groupHalts g (modCtl c (fun k => { k with haltReport := false }) d) := by
  refine (if_pos h).trans ?_
  rw [hg]
  exact (enterHalting_halts ..).trans (if_neg (runningGroup_some hg).1)

/-- Settles O58: reports, the barrier timer, REFCLK loss at the Pace Controller, and halt reports. -/
theorem barrierAndHaltingGroups : Obligations.BarrierAndHaltingGroups := by
  intro g s hheld x remains
  refine ⟨fun c r hr hg => ?_, fun l htimer hl hmember => ?_, fun hloss hremains => ?_, fun hloss => ?_, fun hloss => ?_,
    fun c hreport => ?_⟩
  · intro y d joined complete
    have hy : addReport c r x = y := addReport_eq c r x
    have hjoined : modGroup g (addReport c r) d = joined := modGroup_congr hy
    have hcomplete : (x.halting = false ∧ allAtBarrier (addReport c r x) = true) ↔ complete := by
      rw [allAtBarrier_iff, hy]
    have hexec : exec (.memberReport c) s = .next { s with dev := takeReport c s.dev } := next_dev (happening_running hheld)
    refine ⟨fun h => hexec.trans (next_dev (takeReport_discarded hr hg fun hp => ?_)), fun ht hm hnot => hexec.trans (next_dev ?_),
      fun ht hm hall => hexec.trans (next_dev ?_)⟩
    · rcases h with h | h
      · exact h hp.1
      · rw [show inMask (s.dev.group g).members c = false from h] at hp
        exact absurd hp.2 (by decide)
    · rw [takeReport_joins hr hg ⟨ht, hm⟩]
      exact (if_neg fun h => hnot (hcomplete.mp h)).trans hjoined
    · rw [takeReport_joins hr hg ⟨ht, hm⟩]
      exact (if_pos (hcomplete.mpr hall)).trans (congrArg (barrierReleased g) hjoined)
  · intro d
    have hexec : exec (.barrierTimerExpiry g) s = .next { s with dev := (
        if inMask (missing x) l then groupAbort g d else forMask (missing x) (eject g (some .ejected) .idle .none) d) } := by
      refine next_dev ((happening_running hheld).trans ?_)
      unfold takeBarrierTimeout
      dsimp only
      rw [if_pos (show (s.dev.group g).barrier = some 0 from htimer), show (s.dev.group g).lead = some l from hl]
    have hmissing : inMask (missing x) l = !inMask x.atBarrier l := by rw [inMask_missing, hmember, Bool.true_and]
    refine ⟨fun h => hexec.trans (next_dev ?_), fun h => hexec.trans (next_dev ?_)⟩
    · rw [if_pos (by rw [hmissing, h]; rfl), groupAbort_eq]
      exact congrArg (fun f => groupSweepEnds g (some .aborted) (some (.abort f)) d) (by rw [modGroup_group_self]; rfl)
    · rw [if_neg (by rw [hmissing, h]; decide), show eject g (some .ejected) .idle .none = ejectedFrom g (some .ejected) .idle .none from
        funext fun b => funext fun e => eject_eq ..]
      rfl
  · let d : Device := { s.dev with groupRefLoss := false }
    obtain ⟨e, he, hall⟩ := haltsAt_all (d := d) fun h hne => hremains h hne
    refine ⟨{ s with dev := e }, (exec_groupRefclkLoss hheld hloss).trans (next_dev he), rfl, ?_, ?_, hall.arbiter, fun h =>
      (hall.group h).trans (if_pos trivial)⟩
    · exact congrArg (fun e : Device => { e with groupRefLoss := s.dev.groupRefLoss }) hall.rest
    · have hrest := congrArg Device.groupRefLoss hall.rest
      exact hrest
  · exact exec_groupRefclkLoss hheld hloss
  · refine next_dev ((happening_running hheld).trans (if_neg (Bool.eq_false_iff.mp hloss)))
  · intro d out
    have hremains : remainsIn d g ↔ remains g := by
      refine remainsIn_congr (d := s.dev) rfl fun b => ?_
      rw [modCtl_ctl]
      split
      · next hb => rw [hb]
      · rfl
    have hexec : exec (.memberHaltReport c) s = .next { s with dev := takeHaltReport c s.dev } := next_dev (happening_running hheld)
    have hhalts (hg : runningGroup s.dev c = some g) : exec (.memberHaltReport c) s = .next { s with dev := groupHalts g d } :=
      hexec.trans (next_dev (takeHaltReport_member hreport hg))
    refine ⟨fun hg => hexec.trans (next_dev (takeHaltReport_solo hreport hg)), fun hg hr => (hhalts hg).trans (next_dev (groupHalts_remaining (hremains.mpr hr))),
      fun hg hr hbegun => (hhalts hg).trans (next_dev (groupHalts_begun (fun h => hr (hremains.mp h)) hbegun)),
      fun l hg hr hbegun hl => (hhalts hg).trans (next_dev (groupHalts_inCheck (fun h => hr (hremains.mp h)) hbegun hl))⟩

end Sys2Proof.Machine
end

section
/-! DISABLE: what a channel's work ends with, and the channel's entry to OFF (R13, R20, R28, R29, R39, R62, R72, R86, R108, R118, R120,
R126, R127). -/

namespace Sys2Proof.Machine

-- One theorem after another: a thread for each would take the memory a check allows.
set_option Elab.async false

open Sys2Proof

/-! ### What the end of a channel's work leaves -/

/-- What the end of a channel's work leaves as it was; and it takes no channel to OFF. -/
structure WorkEnded (k k' : Channel) : Prop where
  config : k'.config = k.config
  gen : k'.gen = k.gen
  checker : k'.chk = { k.chk with point := k'.chk.point }
  enables : k'.enables = k.enables
  others : raisedByOthers k' = raisedByOthers k
  snap : k'.snap = k.snap
  command : k'.ctl.lastCommand = k.ctl.lastCommand
  status : k'.ctl.lastStatus = k.ctl.lastStatus
  refLoss : k'.ctl.refLoss = k.ctl.refLoss
  seq : k'.ctl.seq = k.ctl.seq
  powered : k.ctl.state ≠ .off → k'.ctl.state ≠ .off

namespace WorkEnded

theorem refl (k : Channel) : WorkEnded k k := ⟨rfl, rfl, rfl, rfl, rfl, rfl, rfl, rfl, rfl, rfl, id⟩

theorem trans {k l m : Channel} (h : WorkEnded k l) (h' : WorkEnded l m) : WorkEnded k m where
  config := h'.config.trans h.config
  gen := h'.gen.trans h.gen
  checker := by rw [h'.checker, h.checker]
  enables := h'.enables.trans h.enables
  others := h'.others.trans h.others
  snap := h'.snap.trans h.snap
  command := h'.command.trans h.command
  status := h'.status.trans h.status
  refLoss := h'.refLoss.trans h.refLoss
  seq := h'.seq.trans h.seq
  powered := h'.powered ∘ h.powered

theorem monitor {k k' : Channel} (h : WorkEnded k k') : k'.chk.monitor = k.chk.monitor := by rw [h.checker]

end WorkEnded

/-- The raises of the channel's own controller are no other block's. -/
theorem raisedByOthers_append {k k' : Channel} {es : List ChanEvent} (hes : ∀ e ∈ es, byController e = true)
    (h : k'.raised = k.raised ++ es) : raisedByOthers k' = raisedByOthers k := by
  have hnone : es.filter (fun e => [ChanEvent.lock, .unlock, .signalLoss, .signalBack, .routeChanged].contains e) = [] := by
    rw [List.filter_eq_nil_iff]
    intro e he
    have hown := hes e he
    clear he
    revert hown
    cases e <;> decide
  unfold raisedByOthers
  rw [h, List.filter_append, hnone, List.append_nil]

/-- A change of the controller alone. -/
theorem WorkEnded.ofCtl {k : Channel} {x : Controller} (hcommand : x.lastCommand = k.ctl.lastCommand := by rfl)
    (hstatus : x.lastStatus = k.ctl.lastStatus := by rfl) (hloss : x.refLoss = k.ctl.refLoss := by rfl) (hseq : x.seq = k.ctl.seq := by rfl)
    (hstate : x.state = k.ctl.state := by rfl) : WorkEnded k { k with ctl := x } :=
  ⟨rfl, rfl, rfl, rfl, rfl, rfl, hcommand, hstatus, hloss, hseq, fun h => by rw [hstate]; exact h⟩

theorem WorkEnded.ofRest {k : Channel} {st : ChanState} (hst : st ≠ .off) : WorkEnded k (restedIn st k) :=
  ⟨rfl, rfl, rfl, rfl, rfl, rfl, rfl, rfl, rfl, rfl, fun _ => hst⟩

theorem WorkEnded.ofHandedEnd (g : Grp) (m : Option GroupMessage) (members : BitVec 8) (b : Chan) (k : Channel) :
    WorkEnded k (handedEnd g m members b k) := by
  unfold handedEnd
  split
  · exact .ofCtl
  · exact .refl k

/-- The work of channel `c` has ended on the way from the part `d` to the part `e`. -/
def EndedAt (c : Chan) (d e : Device) : Prop := WorkEnded (d.chan c) (e.chan c)

namespace EndedAt

variable {c : Chan} {g : Grp} {d e : Device}

theorem refl (c : Chan) (d : Device) : EndedAt c d d := WorkEnded.refl _

theorem ofChan {e' : Device} (h : EndedAt c d e) (hc : WorkEnded (e.chan c) (e'.chan c)) : EndedAt c d e' := WorkEnded.trans h hc

theorem ofSame {e' : Device} (h : EndedAt c d e) (hc : e'.chan c = e.chan c) : EndedAt c d e' := h.ofChan (hc ▸ .refl _)

theorem modChan (h : EndedAt c d e) {b : Chan} {f : Channel → Channel} (hf : WorkEnded (e.chan b) (f (e.chan b))) :
    EndedAt c d (modChan b f e) := by
  by_cases hb : c = b
  · subst hb
    exact h.ofChan (by rw [modChan_chan_self]; exact hf)
  · exact h.ofSame (by rw [modChan_chan, if_neg hb])

theorem mapChans (h : EndedAt c d e) {f : Chan → Channel → Channel} (hf : WorkEnded (e.chan c) (f c (e.chan c))) :
    EndedAt c d (mapChans f e) := h.ofChan (by rw [mapChans_chan]; exact hf)

theorem modGroup (h : EndedAt c d e) {f : Group → Group} : EndedAt c d (modGroup g f e) := h
theorem paceRefresh (h : EndedAt c d e) : EndedAt c d (paceRefresh e) := h.ofSame (paceRefresh_chan e c)

theorem endingWrite (h : EndedAt c d e) {r : Record} : EndedAt c d (endingWrite c r e) := by
  have hchan : (Machine.endingWrite c r e).chan c = (if ownPart (fillControl e c) then filled (fillControl e c) else discarded) (e.chan c) := by
    rw [endingWrite_form]
    exact modChan_chan_self ..
  refine h.ofChan ?_
  rw [hchan]
  split
  · refine ⟨rfl, rfl, rfl, rfl, ?_, rfl, rfl, rfl, rfl, rfl, id⟩
    unfold filled
    split
    · exact raisedByOthers_append (es := [.point]) (by decide) rfl
    · rfl
  · exact ⟨rfl, rfl, rfl, rfl, raisedByOthers_append (es := [.overrun]) (by decide) rfl, rfl, rfl, rfl, rfl, rfl, id⟩

theorem writeAll (h : EndedAt c d e) (rs : List Record) : EndedAt c d (writeAll c rs e) := by
  induction rs generalizing e with
  | nil => exact h
  | cons r rs ih => exact ih h.endingWrite

theorem groupSweepEnds (h : EndedAt c d e) {o : Option SweepOutcome} {m : Option GroupMessage} : EndedAt c d (groupSweepEnds g o m e) :=
  h.ofChan (by rw [groupSweepEnds_chan]; exact .ofHandedEnd ..)

theorem haltingFrom (h : EndedAt c d e) : EndedAt c d (haltingFrom g e) := h.ofSame (haltingFrom_chan g e c)

theorem haltedCloses (h : EndedAt c d e) : EndedAt c d (haltedCloses g e) := by
  unfold Machine.haltedCloses
  split
  · exact h
  · split
    · exact h.groupSweepEnds
    · cases (e.group g).lead with
      | none => exact h.groupSweepEnds
      | some l => exact (EndedAt.groupSweepEnds (h.modChan .ofCtl))

theorem groupSelects (h : EndedAt c d e) : EndedAt c d (groupSelects g e) := by
  unfold Machine.groupSelects
  dsimp only
  cases select (figuresOf (e.group g)).policy (e.group g).selection with
  | none => exact h.groupSweepEnds
  | some i => exact h.modGroup.paceRefresh

theorem barrierReleased (h : EndedAt c d e) : EndedAt c d (barrierReleased g e) := by
  have hgoes : EndedAt c d (Machine.mapChans (fun b k =>
      if inMask (e.group g).members b = true ∧ k.ctl.group = some g then { k with ctl := { k.ctl with task := .memberWait } } else k)
      (Machine.modGroup g foldedRecord e)) := by
    refine h.modGroup.mapChans ?_
    split
    · exact .ofCtl
    · exact .refl _
  rw [barrierReleased_eq]
  unfold releasedFrom
  dsimp only
  split
  · exact h.modGroup.groupSelects
  · split
    · split
      · exact hgoes.modGroup.paceRefresh
      · exact hgoes.groupSelects
    · exact hgoes
    · exact h.modGroup

theorem groupGoesOn (h : EndedAt c d e) : EndedAt c d (groupGoesOn g e) := by
  unfold Machine.groupGoesOn
  dsimp only
  split
  · exact h.haltedCloses
  · split
    · exact h.modGroup
    · split
      · exact h.barrierReleased
      · exact h

/-- An ejection on the way to OFF. -/
theorem ejectedFrom (h : EndedAt c d e) {o : Option PointOutcome} {st : ChanState} (hst : st ≠ .off) {cause : HaltCause} :
    EndedAt c d (ejectedFrom g o st cause c e) := by
  have hhalting : EndedAt c d (if (e.chan c).ctl.haltReport then Machine.haltingFrom g e else e) := by
    split
    · exact h.haltingFrom
    · exact h
  rw [ejectedFrom_eq]
  dsimp only
  generalize (if (e.chan c).ctl.haltReport then Machine.haltingFrom g e else e) = e1 at hhalting
  refine EndedAt.groupGoesOn (EndedAt.modChan (EndedAt.modGroup ?_) ?_)
  · split
    · exact (hhalting.writeAll _).modChan (.ofRest hst)
    · exact hhalting
  · refine ⟨rfl, rfl, rfl, rfl, raisedByOthers_append (fun v hv => ?_) rfl, rfl, rfl, rfl, rfl, rfl, id⟩
    have hv : v = .ejected ∨ v = .sweepEnd ∨ v = .halt := by
      simp only [List.mem_append, List.mem_singleton, List.mem_ite_nil_right] at hv
      tauto
    rcases hv with rfl | rfl | rfl <;> rfl

theorem checkAbandoned (h : EndedAt c d e) : EndedAt c d (checkAbandoned g c e) := by
  refine EndedAt.groupSweepEnds (EndedAt.mapChans (h.modChan .ofCtl) ?_)
  split
  · exact .ofRest (by decide)
  · exact .refl _

theorem closedAbort (h : EndedAt c d e) {swept : Bool} : EndedAt c d (closedBy .abort swept c e) := by
  refine h.modChan ⟨rfl, rfl, rfl, rfl, raisedByOthers_append (fun v hv => ?_) rfl, rfl, rfl, rfl, rfl, rfl,
    fun _ => show ChanState.idle ≠ .off by decide⟩
  simp only [List.mem_ite_nil_right, List.mem_singleton] at hv
  rw [hv.2]
  rfl

theorem closedHalt (h : EndedAt c d e) {cause : HaltCause} {reports swept : Bool} : EndedAt c d (closedBy (.halt cause reports) swept c e) := by
  refine h.modChan ⟨rfl, rfl, rfl, rfl, raisedByOthers_append (es := (if swept then [.sweepEnd] else []) ++ [.halt]) (fun v hv => ?_) ?_,
    rfl, rfl, rfl, rfl, rfl, fun _ => show ChanState.halted ≠ .off by decide⟩
  · simp only [List.mem_append, List.mem_ite_nil_right, List.mem_singleton] at hv
    rcases hv with ⟨-, rfl⟩ | rfl <;> rfl
  · exact List.append_assoc ..

theorem endedForOff (h : EndedAt c d e) : EndedAt c d (endedForOff c e) := by
  unfold Machine.endedForOff
  dsimp only
  split
  · exact (h.modChan .ofCtl).modChan (.ofRest (by decide))
  · have hrest := (EndedAt.writeAll (h.modChan (b := c) (f := fun k => { k with ctl := { k.ctl with selection := selectionAtEnd (e.chan c).ctl } })
        .ofCtl) (endingPointOf (e.chan c) .aborted e.time.ms ++ endingSummaryOf (e.chan c) .aborted .none (e.time.ms.setWidth 16))).modChan
      (b := c) (.ofRest (st := .idle) (by decide))
    split
    · exact hrest.modChan ⟨rfl, rfl, rfl, rfl, raisedByOthers_append (es := [.sweepEnd]) (by decide) rfl, rfl, rfl, rfl, rfl, rfl, id⟩
    · exact hrest

theorem leftForOff (h : EndedAt c d e) : EndedAt c d (leftForOff g c e) := by
  unfold Machine.leftForOff
  dsimp only
  split
  · split
    · split
      · exact EndedAt.closedAbort (h.groupSweepEnds.writeAll _)
      · exact h.groupSweepEnds
    · exact h.checkAbandoned
  · exact h.ejectedFrom (by decide)

/-- What a group has handed a channel is taken before DISABLE and RESET_CHANNEL. -/
theorem flushGroup (h : EndedAt c d e) : EndedAt c d (flushGroup c e) := by
  unfold Machine.flushGroup
  split
  · exact h
  · exact h
  · rw [takeAbort_eq, endsWith_unwaited]
    exact (h.writeAll _).closedAbort
  · next p f hm =>
    cases p with
    | none => exact h.modChan ⟨rfl, rfl, rfl, rfl, rfl, rfl, rfl, rfl, rfl, rfl, id⟩
    | some p =>
      unfold Machine.takeEnding
      exact (h.modChan (f := fun k => { k with front := p.settings, ctl := { k.ctl with current := some p.index } })
        ⟨rfl, rfl, rfl, rfl, rfl, rfl, rfl, rfl, rfl, rfl, id⟩).modChan .ofCtl
  · rw [takeHalt_eq, endsWith_unwaited]
    exact (h.writeAll _).closedHalt

end EndedAt

end Sys2Proof.Machine
end

section
/-! DISABLE and RESET_CHANNEL (R13, R20, R28, R29, R39, R62, R72, R73, R86, R108, R118, R120, R126, R127, R131, R157). -/

namespace Sys2Proof.Machine

-- One theorem after another: a thread for each would take the memory a check allows.
set_option Elab.async false

open Sys2Proof

variable {c : Chan} {g : Grp} {d : Device}

/-! ### The work a channel ends -/

theorem endWork_solo (h : runningGroup d c = none) : endWork c d = endedForOff c d := by
  have hcheck : endWork c d = if (d.ctl c).task.inCheck then abandonCheck .idle c d else abortSweep c d := by
    unfold endWork; rw [h]
  rw [hcheck]
  unfold endedForOff
  dsimp only
  by_cases hc : (d.ctl c).task.inCheck = true
  · rw [if_pos hc]
    exact (if_pos hc).symm
  · rw [if_neg hc, abortSweep_eq]
    refine Eq.trans ?_ (if_neg hc).symm
    have hselection : modCtl c (fun k => { k with selection := selectionAtEnd k }) d =
        modCtl c (fun y => { y with selection := selectionAtEnd (d.chan c).ctl }) d := modChan_congr rfl
    rw [hselection, show sweepUnderWay (d.ctl c) = sweepUnderWay (d.chan c).ctl from rfl]
    unfold closedBy
    dsimp only
    cases sweepUnderWay (d.chan c).ctl with
    | true => simp only [if_true, raise, modChan_modChan]; rfl
    | false =>
      simp only [Bool.false_eq_true, if_false]
      refine modChan_congr ?_
      rw [List.append_nil]
      rfl

theorem endWork_member (h : runningGroup d c = some g) : endWork c d = leftForOff g c d := by
  unfold endWork leftForOff
  rw [h]
  dsimp only
  by_cases hl : (d.group g).lead = some c
  · rw [if_pos (leads_iff.mpr hl)]
    refine Eq.trans ?_ (if_pos hl).symm
    by_cases hbegun : (d.group g).begun = true
    · rw [if_pos hbegun, if_pos hbegun]
      by_cases hpart : (d.ctl c).group = some g
      · rw [leadAborts_idle hpart]
        exact (if_pos hpart).symm
      · rw [leadAborts_gone hpart]
        exact (if_neg hpart).symm
    · rw [if_neg hbegun, if_neg hbegun]
      exact abandonGroupCheck_eq hl
  · rw [if_neg fun h => hl (leads_iff.mp h)]
    exact (eject_eq ..).trans (if_neg hl).symm

theorem endWork_ended (c : Chan) (d : Device) : EndedAt c d (endWork c d) := by
  cases h : runningGroup d c with
  | none => rw [endWork_solo h]; exact (EndedAt.refl c d).endedForOff
  | some g => rw [endWork_member h]; exact (EndedAt.refl c d).leftForOff

/-! ### The entry to OFF (R20, R28, R29, R72) -/

/-- A checker that is OFF hears nothing. -/
theorem hearReport_off {p : Bool} {k : Channel} (h : k.chk.state = .off) : hearReport p k = k := by
  unfold hearReport
  rw [h]

theorem powerDown_form (h : (d.ctl c).state ≠ .off) : powerDown c d = poweredDown c d := by
  have hlane : laneReport d c = d.lanes.activity.get c := by
    unfold laneReport
    simp [h]
  have hoff : offAlone c d =
      mapChans (fun b k => if b = c then { k with
          front := restSettings, chk := chkEnterOff k.chk
          ctl := { atRestIn .off k.ctl with inbox := if k.chk.state = .locked then [.lockLost] else [] } } else k)
        { d with lanes := { d.lanes with tx := d.lanes.tx.set c none } } := by
    rw [← modChan_eq_mapChans]; rfl
  unfold poweredDown
  rw [powerDown_eq, hlane, hoff]
  cases ha : d.lanes.activity.get c with
  | false =>
    rw [if_neg (by decide)]
    refine mapChans_congr fun b => ?_
    simp only [Bool.false_eq_true, and_false, if_false]
  | true =>
    rw [if_pos rfl, reportChanged_eq, mapChans_mapChans]
    refine mapChans_congr fun b => ?_
    by_cases hb : b = c
    · subst hb
      simp only [if_true]
      split
      · exact hearReport_off rfl
      · rfl
    · simp only [hb, if_false, and_true]
      rfl

theorem poweredDown_chan_self (c : Chan) (d : Device) :
    (poweredDown c d).chan c =
      let k := d.chan c
      { k with
        front := restSettings, chk := chkEnterOff k.chk
        ctl := { atRestIn .off k.ctl with inbox := if k.chk.state = .locked then [.lockLost] else [] } } := by
  unfold poweredDown
  rw [mapChans_chan, if_pos rfl]
  rfl

theorem poweredDown_chan_other {b : Chan} (hb : b ≠ c) :
    (poweredDown c d).chan b =
      if d.time.present = true ∧ d.lanes.checkerSource.get b = c ∧ d.lanes.activity.get c = true then hearReport false (d.chan b)
      else d.chan b := by
  unfold poweredDown
  rw [mapChans_chan, if_neg hb]
  rfl

/-! ### DISABLE (R72) -/

theorem cmdDisable_off (h : (d.ctl c).state = .off) :
    cmdDisable c d = modCtl c (fun k => { k with lastCommand := 0x02, lastStatus := .accepted }) d := if_pos h

theorem cmdDisable_powered (h : (d.ctl c).state ≠ .off) :
    cmdDisable c d = poweredDown c (endWork c (accept 0x02 .accepted c d)) := by
  refine (if_neg h).trans (powerDown_form ?_)
  have hstate : ((accept 0x02 .accepted c d).ctl c).state ≠ .off := by rw [accept_ctl_self]; exact h
  exact (endWork_ended c (accept 0x02 .accepted c d)).powered hstate

theorem exec_disable {s : State} (hheld : s.dev.held = false) : exec (.disable c) s = .next { s with dev := cmdDisable c (flushGroup c s.dev) } :=
  exec_channelRow_running .disable c hheld

/-- Outside SWEEP and TRACK a channel has no work. -/
theorem noWork_of_rule {k : Controller} {front : Settings} (h : stateRule k front)
    (hs : k.state = .off ∨ k.state = .idle ∨ k.state = .halted ∨ k.state = .applied) : noWork k := by
  unfold stateRule at h
  rcases hs with hs | hs | hs | hs <;>
  · simp only [hs] at h
    exact h.1

/-- A channel with no work ends none: it rests. -/
theorem endedForOff_noWork (h : noWork (d.ctl c)) : endedForOff c d = modChan c (restedIn .idle) d := by
  obtain ⟨htask, horigin, -⟩ := h
  have htask' : (d.chan c).ctl.task = .idle := htask
  have horigin' : (d.chan c).ctl.origin = .none := horigin
  have hpoint : endingPointOf (d.chan c) .aborted d.time.ms = [] := by
    unfold endingPointOf; rw [htask']; rfl
  have hsummary : endingSummaryOf (d.chan c) .aborted .none (d.time.ms.setWidth 16) = [] := by
    unfold endingSummaryOf; rw [if_neg (by rw [horigin']; exact fun h => nomatch h.1)]
  have hselection : modCtl c (fun y => { y with selection := selectionAtEnd (d.chan c).ctl }) d = d := by
    refine (modChan_congr (g := fun k => k) ?_).trans (modChan_same c d)
    rw [selectionAtEnd_noPoint (by rw [htask']; rfl)]
  have hswept : sweepUnderWay (d.chan c).ctl = false := by unfold sweepUnderWay; rw [horigin']; rfl
  unfold endedForOff
  dsimp only
  rw [htask', if_neg (by decide), hpoint, hsummary, hselection, hswept, if_neg (by decide)]
  rfl

/-- Settles O16: the three forms of the work's end, and what every one of them leaves. -/
theorem disablePowersDown : Obligations.DisablePowersDown := by
  refine ⟨fun c s hheld hrule => ⟨fun hoff => ?_, fun hstate hsolo hpresent => ?_⟩, fun c s hheld hmsg hstate => ?_, fun c s hheld => ?_⟩
  · obtain ⟨-, -, -, -, -, -, hmsg⟩ := noWork_of_rule hrule.1 (.inl hoff)
    rw [exec_disable hheld, flushGroup_none hmsg, cmdDisable_off hoff]
  · have hwork : noWork (s.dev.ctl c) := noWork_of_rule hrule.1 (.inr hstate)
    have hpowered : (s.dev.ctl c).state ≠ .off := by rcases hstate with h | h | h <;> rw [h] <;> decide
    have hwork' : noWork ((accept 0x02 .accepted c s.dev).ctl c) := by
      rw [accept_ctl_self]; exact hwork
    obtain ⟨-, -, -, -, -, -, hmsg⟩ := hwork
    have hexec : exec (.disable c) s =
        .next { s with dev := poweredDown c (modChan c (restedIn .idle) (accept 0x02 .accepted c s.dev)) } := by
      rw [exec_disable hheld, flushGroup_none hmsg, cmdDisable_powered hpowered, 
        endWork_solo (d := accept 0x02 .accepted c s.dev) hsolo, endedForOff_noWork hwork']
    refine ⟨_, hexec, rfl, rfl, rfl, ?_, fun b hb => ?_⟩
    · dsimp only
      rw [poweredDown_chan_self, modChan_chan_self, accept_eq, modCtl_chan_self]
      rfl
    · dsimp only
      rw [poweredDown_chan_other hb, modChan_chan, if_neg hb, accept_eq, modCtl_chan, if_neg hb]
      exact if_congr (and_iff_right hpresent) rfl rfl
  · intro told
    have hexec : exec (.disable c) s = .next { s with dev := poweredDown c (endWork c told) } := by
      rw [exec_disable hheld, flushGroup_noEnd hmsg, cmdDisable_powered hstate]
      rfl
    exact ⟨fun hsolo => hexec.trans (next_dev (congrArg (poweredDown c) (endWork_solo hsolo))),
      fun g hg => hexec.trans (next_dev (congrArg (poweredDown c) (endWork_member hg)))⟩
  · have hflush := (EndedAt.refl c s.dev).flushGroup
    have hbytes := ((Keeps.refl (inRing c) s.dev).takeCommand (c := c) (k := .disable) fun _ _ h => h).bytes
    refine ⟨_, exec_disable hheld, rfl, ?_⟩
    have hbytes' : ∀ a, ¬ inRing c a → ramByte (cmdDisable c (flushGroup c s.dev)) a = ramByte s.dev a := hbytes
    dsimp only
    generalize flushGroup c s.dev = d at hflush hbytes'
    by_cases hoff : (d.ctl c).state = .off
    · have hchan : (cmdDisable c d).chan c =
          { d.chan c with ctl := { d.ctl c with lastCommand := 0x02, lastStatus := .accepted } } := by
        rw [cmdDisable_off hoff, modCtl_chan_self]
      have hctl : (cmdDisable c d).ctl c = { d.ctl c with lastCommand := 0x02, lastStatus := .accepted } := congrArg Channel.ctl hchan
      rw [hchan, hctl]
      exact ⟨hoff, fun h => absurd hoff (hflush.powered h), rfl, rfl, hflush.config, hflush.gen, hflush.monitor,
        hflush.snap, hflush.enables, hflush.seq, hbytes'⟩
    · have hended := endWork_ended c (accept 0x02 .accepted c d)
      unfold EndedAt at hended
      rw [show (accept 0x02 .accepted c d).chan c = { d.chan c with ctl := { d.ctl c with lastCommand := 0x02, lastStatus := .accepted } }
        from modCtl_chan_self ..] at hended
      rw [cmdDisable_powered hoff] at hbytes' ⊢
      have hchan := poweredDown_chan_self c (endWork c (accept 0x02 .accepted c d))
      generalize endWork c (accept 0x02 .accepted c d) = e at hended hchan hbytes'
      rw [show (poweredDown c e).ctl c = ((poweredDown c e).chan c).ctl from rfl, hchan]
      exact ⟨rfl, fun _ => ⟨rfl, rfl, rfl, rfl, rfl, rfl, rfl, rfl, rfl, rfl⟩, hended.command, hended.status,
        hended.config.trans hflush.config, hended.gen.trans hflush.gen, hended.monitor.trans hflush.monitor, hended.snap.trans hflush.snap,
        hended.enables.trans hflush.enables, hended.seq.trans hflush.seq, hbytes'⟩

end Sys2Proof.Machine
end

section
/-! RESET_CHANNEL (R13, R39, R62, R72, R73, R86, R108, R120, R126, R127, R131, R157). -/

namespace Sys2Proof.Machine

-- One theorem after another: a thread for each would take the memory a check allows.
set_option Elab.async false

open Sys2Proof

variable {c : Chan} {g : Grp} {d : Device}

/-! ### The reset values (R73, R157) -/

theorem byController_eq (e : ChanEvent) : (!byController e) = [ChanEvent.lock, .unlock, .signalLoss, .signalBack, .routeChanged].contains e := by
  cases e <;> rfl

theorem raisedByOthers_eq (k : Channel) : raisedByOthers k = k.raised.filter fun e => !byController e :=
  congrArg (fun p => k.raised.filter p) (funext fun e => (byController_eq e).symm)

/-- What a reset makes of a channel whose work has ended. -/
theorem resetValues_ended {k k' : Channel} (h : WorkEnded k k') (n : Nat) :
    resetValues n (handedAtOff k.chk) k' = resetAt ((raisedByOthers k).drop n) k := by
  unfold resetValues
  rw [← raisedByOthers_eq, h.others, h.checker, h.config, h.gen, h.refLoss]
  rfl

/-- The reset of a channel asks nothing of it that the end of its work changes. -/
theorem resetAt_ended {k k' : Channel} (h : WorkEnded k k') (l : List ChanEvent) : resetAt l k' = resetAt l k := by
  unfold resetAt
  rw [h.checker, h.config, h.gen, h.refLoss]

theorem powerDown_chan_self (c : Chan) (d : Device) :
    (powerDown c d).chan c =
      let k := d.chan c
      { k with
        front := restSettings, chk := chkEnterOff k.chk, ctl := { dropWork .off k.ctl with inbox := handedAtOff k.chk } } := by
  have halone : (offAlone c d).chan c =
      { d.chan c with
        front := restSettings, chk := chkEnterOff (d.chan c).chk
        ctl := { dropWork .off (d.chan c).ctl with inbox := handedAtOff (d.chan c).chk } } :=
    Eight.get_set_self ..
  rw [powerDown_eq]
  split
  · rw [reportChanged_eq, mapChans_chan, halone]
    split
    · exact hearReport_off rfl
    · rfl
  · exact halone

/-- The entry to OFF changes nothing that the reset keeps. -/
theorem resetValues_powerDown (n : Nat) (l : List Handed) (c : Chan) (d : Device) :
    resetValues n l ((powerDown c d).chan c) = resetValues n l (d.chan c) := by
  rw [powerDown_chan_self]
  rfl

/-! ### RESET_CHANNEL -/

/-- The part once the channel's work has ended, as RESET_CHANNEL ends it. -/
def quitWork (c : Chan) (d : Device) : Device :=
  if (d.ctl c).state = .off && (runningGroup d c).isNone then d else powerDown c (endWork c d)

theorem cmdResetChannel_eq (c : Chan) (d : Device) :
    cmdResetChannel c d =
      modChan c (fun _ => resetAt ((raisedByOthers (d.chan c)).drop (Config.raisesTaken d.free)) (d.chan c))
        { quitWork c d with groups := Four.build fun g => leftBy c ((quitWork c d).group g), free := d.free + 1 } := by
  have hvalues : resetValues (Config.raisesTaken d.free) (handedAtOff (d.chan c).chk) ((quitWork c d).chan c) =
      resetAt ((raisedByOthers (d.chan c)).drop (Config.raisesTaken d.free)) (d.chan c) := by
    unfold quitWork
    split
    · exact resetValues_ended (.refl _) _
    · rw [resetValues_powerDown]
      exact resetValues_ended (endWork_ended c d) _
  show modChan c (resetValues (Config.raisesTaken d.free) (handedAtOff (d.chan c).chk)) { leaveGroups c (quitWork c d) with free := d.free + 1 } = _
  rw [leaveGroups_eq]
  exact modChan_congr hvalues

/-- A channel that is another's follower after its work has ended, or leads a group it is no member of, did so before. -/
theorem endWork_strayLead (h : ((endWork c d).group g).lead = some c) (hm : inMask ((endWork c d).group g).members c = false) :
    (d.group g).lead = some c ∧ inMask (d.group g).members c = false := by
  have hsame (e : Device) (he : roles (e.group g) = roles (d.group g)) (hl : (e.group g).lead = some c)
      (hm : inMask (e.group g).members c = false) : (d.group g).lead = some c ∧ inMask (d.group g).members c = false :=
    ⟨(congrArg Prod.snd he).symm.trans hl, (congrArg (fun r : BitVec 8 × Option Chan => inMask r.1 c) he).symm.trans hm⟩
  have hclosed (e : Device) (k : Grp) (o : Option SweepOutcome) (he : e.group g = if g = k then groupClosed o (d.group k) else d.group g) :
      roles (e.group g) = roles (d.group g) := by
    rw [he]
    split
    · next hk => subst hk; rfl
    · rfl
  unfold endWork at h hm
  cases hg : runningGroup d c with
  | none =>
    simp only [hg] at h hm
    split at h
    · rw [if_pos ‹_›] at hm
      exact hsame _ (congrArg roles (((Solo.refl c d).abandonCheck _).group g)) h hm
    · rw [if_neg ‹_›] at hm
      exact hsame _ (congrArg roles ((Solo.refl c d).abortSweep.group g)) h hm
  | some k =>
    simp only [hg] at h hm
    by_cases hl : leads d k c = true
    · rw [if_pos hl] at h hm
      by_cases hbegun : (d.group k).begun = true
      · rw [if_pos hbegun] at h hm
        exact hsame _ (hclosed _ k _ ((leadAborts_group ..).trans (groupAbort_group k g d))) h hm
      · rw [if_neg hbegun] at h hm
        exact hsame _ (hclosed _ k _ (abandonGroupCheck_group k g d)) h hm
    · rw [if_neg hl] at h hm
      have hroles := eject_roles k g none .idle .none c d
      by_cases hk : g = k
      · rw [if_pos hk] at hroles
        exact absurd ((congrArg Prod.snd hroles).symm.trans h) (leads_false hl)
      · rw [if_neg hk] at hroles
        exact hsame _ hroles h hm

theorem quitWork_strayLead (h : ((quitWork c d).group g).lead = some c) (hm : inMask ((quitWork c d).group g).members c = false) :
    (d.group g).lead = some c ∧ inMask (d.group g).members c = false := by
  unfold quitWork at h hm
  split at h
  · rw [if_pos ‹_›] at hm
    exact ⟨h, hm⟩
  · rw [if_neg ‹_›] at hm
    rw [powerDown_group] at h hm
    exact endWork_strayLead h hm

/-- Whoever leaves a group leads it no more. -/
theorem leftBy_lead {x : Group} (h : (leftBy c x).lead = some c) : x.lead = some c ∧ inMask x.members c = false := by
  unfold leftBy at h
  split at h
  · dsimp only at h
    split at h
    · cases h
    · next hne => exact absurd h hne
  · next hm => exact ⟨h, Bool.eq_false_iff.mpr hm⟩

theorem quitWork_off (h : runningGroup d c = none) (hoff : (d.ctl c).state = .off) : quitWork c d = d :=
  if_pos (by rw [h, hoff]; rfl)

theorem quitWork_powered (hstate : (d.ctl c).state ≠ .off) : quitWork c d = poweredDown c (endWork c d) := by
  refine (if_neg fun h => hstate ?_).trans (powerDown_form ((endWork_ended c d).powered hstate))
  rw [Bool.and_eq_true, decide_eq_true_eq] at h
  exact h.1

theorem exec_resetChannel {s : State} (hheld : s.dev.held = false) :
    exec (.resetChannel c) s = .next { s with dev := cmdResetChannel c (flushGroup c s.dev) } :=
  exec_channelRow_running .resetChannel c hheld

/-- Settles O17: the channel's values and its groups in every state, then the work it ends. -/
theorem resetChannelResetsTheChannel : Obligations.ResetChannelResetsTheChannel := by
  refine ⟨fun c s hheld => ?_, fun c s hheld hmsg => ?_⟩
  · have hflush := (EndedAt.refl c s.dev).flushGroup
    have hgroups := fun g => ((Solo.refl c s.dev).flushGroup).group g
    have hbytes := ((Keeps.refl (inRing c) s.dev).takeCommand (c := c) (k := .resetChannel) fun _ _ h => h).bytes
    have hleft (e : Device) (n : Nat) (g : Grp) :
        ({ e with groups := Four.build fun g => leftBy c (e.group g), free := n } : Device).group g = leftBy c (e.group g) := Four.get_build _ g
    refine ⟨_, Config.raisesTaken (flushGroup c s.dev).free, exec_resetChannel hheld, rfl, ?_, fun g => ⟨?_, fun hl => ?_⟩, hbytes⟩
    · dsimp only
      rw [cmdResetChannel_eq, modChan_chan_self]
      rw [hflush.others, resetAt_ended hflush]
    · dsimp only
      rw [cmdResetChannel_eq, modChan_group, hleft, leftBy_members, bne_self_eq_false, Bool.and_false]
    · dsimp only at hl
      rw [cmdResetChannel_eq, modChan_group, hleft] at hl
      obtain ⟨hlead, hmember⟩ := leftBy_lead hl
      rw [← hgroups]
      exact quitWork_strayLead hlead hmember
  · intro reset
    have hexec : exec (.resetChannel c) s = .next { s with dev := reset (Config.raisesTaken s.dev.free) (quitWork c s.dev) } := by
      rw [exec_resetChannel hheld, flushGroup_noEnd hmsg, cmdResetChannel_eq]
    refine ⟨fun hsolo => ⟨_, hexec.trans (next_dev (congrArg (reset _) ?_))⟩, fun g hg hstate => ⟨_, hexec.trans (next_dev (congrArg (reset _) ?_))⟩⟩
    · by_cases hoff : (s.dev.ctl c).state = .off
      · rw [quitWork_off hsolo hoff, if_pos hoff]
      · rw [quitWork_powered hoff, endWork_solo hsolo, if_neg hoff]
    · rw [quitWork_powered hstate, endWork_member hg]

end Sys2Proof.Machine
end

section
/-! The commands that a preload hands, and the Preload Controller's transfers and blocks (R167 to R178, R185). -/

namespace Sys2Proof.Machine

-- One theorem after another: a thread for each would take the memory a check allows.
set_option Elab.async false

open Sys2Proof

variable {c : Chan} {d : Device}

/-! ### Handed commands (R175) -/

/-- The start actions left after one has been taken: PRELOAD_DONE where it was the last. -/
theorem startDone_left (a : StartActions) (d : Device) :
    startDone (modPreload (fun x => { x with start := some a }) d) =
      if a.enables = 0 ∧ a.starts = 0 then { d with preload := { d.preload with start := none }, raised := d.raised ++ [.preloadDone] }
      else { d with preload := { d.preload with start := some a } } := rfl

theorem takeHandedEnable_handed {a : StartActions} (ha : d.preload.start = some a) (hc : inMask a.enables c = true) :
    takeHandedEnable c d =
      startDone (modPreload (fun x => { x with start := some { a with enables := maskErase a.enables c } }) (takeCommand .enable c d)) := by
  unfold takeHandedEnable
  rw [ha]
  exact if_pos hc

theorem takeHandedEnable_none (h : ∀ a, d.preload.start = some a → inMask a.enables c = false) : takeHandedEnable c d = d := by
  unfold takeHandedEnable
  cases ha : d.preload.start with
  | none => rfl
  | some a => exact if_neg (Bool.eq_false_iff.mp (h a ha))

theorem takeHandedStart_handed {a : StartActions} (ha : d.preload.start = some a) (he : a.enables = 0) (hc : inMask a.starts c = true) :
    takeHandedStart c d =
      startDone (modPreload (fun x => { x with start := some { a with starts := maskErase a.starts c } })
        (takeCommand .startSweep c d)) := by
  unfold takeHandedStart
  rw [ha]
  exact if_pos ⟨he, hc⟩

theorem takeHandedStart_none (h : ∀ a, d.preload.start = some a → a.enables ≠ 0 ∨ inMask a.starts c = false) :
    takeHandedStart c d = d := by
  unfold takeHandedStart
  cases ha : d.preload.start with
  | none => rfl
  | some a =>
    refine if_neg fun ⟨he, hc⟩ => ?_
    cases h a ha with
    | inl hne => exact hne he
    | inr hout => exact Bool.eq_false_iff.mp hout hc

/-- Settles O60: a handed command is the command of its channel, and the mask that named it loses its bit. -/
theorem preloadHandsItsCommands : Obligations.PreloadHandsItsCommands := by
  unfold Obligations.PreloadHandsItsCommands
  intro c s hheld
  refine ⟨fun a ha hc => ⟨_, exec_channelRow_running .enable c hheld, ?_⟩,
    fun a ha he hc => ⟨_, exec_channelRow_running .startSweep c hheld, ?_⟩, fun h => ?_, fun h => ?_⟩
  · refine next_dev ((happening_running hheld).trans ?_)
    rw [takeHandedEnable_handed ha hc]
    exact startDone_left _ _
  · refine next_dev ((happening_running hheld).trans ?_)
    rw [takeHandedStart_handed ha he hc]
    exact startDone_left _ _
  · exact next_dev ((happening_running hheld).trans (takeHandedEnable_none h))
  · exact next_dev ((happening_running hheld).trans (takeHandedStart_none h))

/-! ### After a block (R173, R175) -/

theorem offMask_eq (d : Device) (m : BitVec 8) : offMask d m = offAmong d m := by
  unfold offMask offAmong
  simp only [inMask, maskInsert, Bool.and_eq_true, decide_eq_true_eq]

theorem endPreload_eq (d : Device) :
    endPreload d =
      let x := d.preload
      let earlier : StartActions := x.start.getD { enables := 0, starts := 0 }
      let enables := earlier.enables ||| offAmong d (x.enableMask ||| x.startMask)
      let starts := earlier.starts ||| x.startMask
      let done : Preload := { x with state := .done, work := .idle, staging := [] }
      if enables = 0 ∧ starts = 0 then
        { d with preload := { done with start := none }, raised := d.raised ++ [.preloadDone] }
      else { d with preload := { done with start := some { enables := enables, starts := starts } } } := by
  unfold endPreload
  rw [offMask_eq]
  exact startDone_left _ _

theorem nextBlock_eq (d : Device) : nextBlock d = preloadGoesOn (blockExtent d.preload) d := by
  unfold nextBlock preloadGoesOn
  by_cases h : d.preload.blockNumber < d.preload.blockCount
  · exact (if_neg (Nat.not_le.mpr h)).trans (if_pos h).symm
  · exact (if_pos (Nat.not_lt.mp h)).trans ((endPreload_eq d).trans (if_neg h).symm)

/-! ### Judging a block (R173, R185) -/

/-- The code of a block type (R185). -/
def typeCode (t : BlockType) : Nat :=
  match t with
  | .plan => 1
  | .dwell => 2
  | .channel => 3
  | .route => 4
  | .group => 5
  | .ring => 6

theorem blockTypeOf_some {n : Nat} {t : BlockType} (h : blockTypeOf n = some t) : n = typeCode t := by
  unfold blockTypeOf at h
  split at h <;> cases h <;> rfl

theorem typeCode_range (t : BlockType) : ¬ (typeCode t = 0 ∨ 6 < typeCode t) := by cases t <;> decide

theorem blockTypeOf_none {n : Nat} : blockTypeOf n = none ↔ n = 0 ∨ 6 < n := by
  constructor
  · intro h
    by_contra hrange
    have hlow : 1 ≤ n := by omega
    have hhigh : n ≤ 6 := by omega
    interval_cases n <;> cases h
  · intro hrange
    cases h : blockTypeOf n with
    | none => rfl
    | some t => exact absurd (blockTypeOf_some h ▸ hrange) (typeCode_range t)

theorem lengthFits_code (t : BlockType) (n : Nat) : lengthFits t n = blockLengthFits (typeCode t) n := by cases t <;> rfl

theorem targetFits_code (t : BlockType) (n : Nat) : targetFits t n = blockTargetFits (typeCode t) n := by cases t <;> rfl

theorem typeCode_plan (t : BlockType) : t = .plan ↔ typeCode t = 1 := by cases t <;> decide

theorem typeCode_group (t : BlockType) : t = .group ↔ typeCode t = 5 := by cases t <;> decide

theorem targetFits_channel {n : Nat} (h : blockTargetFits (typeCode .channel) n = true) : n < 8 := of_decide_eq_true h

theorem lowByte_eq (w : BusWord) : w.setWidth 8 = w.extractLsb' 0 8 := by
  apply BitVec.eq_of_toNat_eq
  simp

theorem leadAllowed_leadOf (m : BitVec 8) (n : Nat) :
    leadAllowed m (leadOf n) = !(decide (n % 16 < 8) && !m.getLsbD (n % 16)) := by
  unfold leadOf
  by_cases h : n % 16 < 8
  · rw [dif_pos h, decide_eq_true h, Bool.true_and, Bool.not_not]; rfl
  · rw [dif_neg h, decide_eq_false h]; rfl

theorem groupBlockFits_eq (d : Device) (g : Grp) (w : BusWord) : groupBlockFits d g w = !groupBlockBreaks d g w := by
  unfold groupBlockFits groupBlockBreaks membersAllowed
  rw [leadAllowed_leadOf, lowByte_eq]
  simp only [allGroups, List.all_cons, List.all_nil, List.any_cons, List.any_nil, Bool.not_or, Bool.not_and, bne, Bool.not_not,
    Bool.or_false, Bool.and_true, beq_eq_decide]

/-- The first fault of a block, or its type, as R173 orders them. -/
theorem blockFault_eq (d : Device) (ws : List BusWord) :
    (∃ r, skipReasonOf d ws = some r ∧ blockFault d ws = .inl r)
      ∨ ∃ t, skipReasonOf d ws = none ∧ blockFault d ws = .inr t ∧ (wordAt ws 0).toNat % 256 = typeCode t
          ∧ blockTargetFits (typeCode t) ((wordAt ws 0).toNat / 256) = true := by
  unfold skipReasonOf blockFault
  dsimp only
  by_cases hsum : wordSum ws ≠ 0
  · exact .inl ⟨_, if_pos hsum, if_pos hsum⟩
  rw [if_neg hsum, if_neg hsum]
  cases ht : blockTypeOf ((wordAt ws 0).toNat % 256) with
  | none => exact .inl ⟨_, if_pos (blockTypeOf_none.mp ht), rfl⟩
  | some t =>
    have hcode := blockTypeOf_some ht
    rw [hcode, if_neg (typeCode_range t)]
    dsimp only
    rw [lengthFits_code, targetFits_code, groupBlockFits_eq]
    simp only [typeCode_plan, typeCode_group, Bool.not_eq_true', Bool.not_eq_false']
    by_cases hlength : blockLengthFits (typeCode t) (wordAt ws 1).toNat = false
    · exact .inl ⟨_, if_pos hlength, if_pos hlength⟩
    rw [if_neg hlength, if_neg hlength]
    by_cases htarget : blockTargetFits (typeCode t) ((wordAt ws 0).toNat / 256) = false
    · exact .inl ⟨_, if_pos htarget, if_pos htarget⟩
    rw [if_neg htarget, if_neg htarget]
    by_cases hrange : typeCode t = 1 ∧ 128 < (wordAt ws 0).toNat / 256 + (wordAt ws 1).toNat / 8
    · exact .inl ⟨_, if_pos hrange, if_pos hrange⟩
    rw [if_neg hrange, if_neg hrange]
    by_cases hrule : typeCode t = 5
        ∧ groupBlockBreaks d ⟨(wordAt ws 0).toNat / 256 % 4, Nat.mod_lt _ (by decide)⟩ (wordAt ws 2) = true
    · exact .inl ⟨_, if_pos hrule, if_pos hrule⟩
    · exact .inr ⟨t, if_neg hrule, if_neg hrule, rfl, Bool.eq_true_of_not_eq_false htarget⟩

/-! ### Writing a register block (R174) -/

theorem preload_aside (d : Device) (p : Preload) : ({ d with preload := p } : Device) = aside d.host p d := rfl

theorem foldl_set_eq_build {α : Type} (f : Fin 8 → α) (v : Eight α) :
    allChans.foldl (fun v k => v.set k (f k)) v = Eight.build f := rfl

theorem writeDwellBlock_eq (ws : List BusWord) (d : Device) :
    writeDwellBlock ws d = { d with dwell := Eight.build fun j => (wordAt ws (2 + j.val)).setWidth 12 } := by
  have fold : ∀ (l : List Chan) (d : Device), l.foldl (fun d k => storeDwell k (wordAt ws (2 + k.val)) d) d =
      { d with dwell := l.foldl (fun v k => v.set k ((wordAt ws (2 + k.val)).setWidth 12)) d.dwell } := by
    intro l
    induction l with
    | nil => exact fun d => rfl
    | cons k l ih => exact fun d => ih _
  exact (fold allChans d).trans (congrArg (fun v => ({ d with dwell := v } : Device)) (foldl_set_eq_build _ d.dwell))

theorem writeGroupBlock_eq (g : Grp) (ws : List BusWord) (d : Device) :
    writeGroupBlock g ws d =
      modGroup g (fun x => { x with members := (wordAt ws 2).extractLsb' 0 8, lead := leadOf ((wordAt ws 2).toNat / 256) }) d := by
  unfold writeGroupBlock storeLead storeMembers
  rw [modGroup_modGroup, lowByte_eq]

theorem writeChannelBlock_aside (c : Chan) (ws : List BusWord) (h : HostInterface) (p : Preload) (d : Device) :
    writeChannelBlock c ws (aside h p d) = aside h p (writeChannelBlock c ws d) :=
  foldl_storeCfg_aside c (channelFields ws) h p d

theorem writeRouteBlock_aside (ws : List BusWord) (h : HostInterface) (p : Preload) (d : Device) :
    writeRouteBlock ws (aside h p d) = aside h p (writeRouteBlock ws d) :=
  storeSources_aside (fun t => fieldOf (wordAt ws (2 + t.val)) 0 8) (fun c => fieldOf (wordAt ws (2 + c.val)) 8 8) h p d

theorem blockApplied_eq (d : Device) (p : Preload) :
    blockApplied { d with preload := p } =
      preloadGoesOn (blockExtent p) { d with preload := { p with applied := p.applied + 1 } } := by
  unfold blockApplied
  rw [nextBlock_eq]; rfl

theorem blockApplied_written {e r : Device} {p : Preload} (h : e = aside r.host p r) :
    blockApplied e = preloadGoesOn (blockExtent p) { r with preload := { p with applied := p.applied + 1 } } := by
  subst h
  exact blockApplied_eq r p

theorem writeDwellBlock_aside (t : Nat) (ws : List BusWord) (p : Preload) (d : Device) :
    writeDwellBlock ws (aside d.host p d) = aside (registerBlock 2 t ws d).host p (registerBlock 2 t ws d) :=
  writeDwellBlock_eq ws _

theorem writeChannelBlock_registers {t : Nat} (ht : t < 8) (ws : List BusWord) (p : Preload) {d : Device} (hheld : d.held = false) :
    writeChannelBlock (targetChan t) ws (aside d.host p d) = aside (registerBlock 3 t ws d).host p (registerBlock 3 t ws d) := by
  rw [writeChannelBlock_aside, writeChannelBlock_eq _ ws d hheld, show (targetChan t).val = t from Nat.mod_eq_of_lt ht]
  rfl

theorem writeRouteBlock_registers (t : Nat) (ws : List BusWord) (p : Preload) {d : Device} (hheld : d.held = false) :
    writeRouteBlock ws (aside d.host p d) = aside (registerBlock 4 t ws d).host p (registerBlock 4 t ws d) := by
  rw [writeRouteBlock_aside, writeRouteBlock_eq ws d.host.pageMask d hheld]
  rfl

theorem writeGroupBlock_registers (t : Nat) (ws : List BusWord) (p : Preload) (d : Device) :
    writeGroupBlock (targetGroup t) ws (aside d.host p d) = aside (registerBlock 5 t ws d).host p (registerBlock 5 t ws d) :=
  writeGroupBlock_eq _ ws _

/-- A register block is written in the happening that judges it, and the preload goes on. -/
theorem writeBlock_register {t : BlockType} (hplan : t ≠ .plan) (hring : t ≠ .ring) (ws : List BusWord) {d : Device} (p : Preload)
    (hheld : d.held = false) (htarget : blockTargetFits (typeCode t) ((wordAt ws 0).toNat / 256) = true) :
    writeBlock t ws { d with preload := p } =
      preloadGoesOn (blockExtent p)
        { registerBlock (typeCode t) ((wordAt ws 0).toNat / 256) ws d with preload := { p with applied := p.applied + 1 } } := by
  cases t with
  | plan => exact absurd rfl hplan
  | ring => exact absurd rfl hring
  | dwell => exact blockApplied_written (writeDwellBlock_aside _ ws p d)
  | channel => exact blockApplied_written (writeChannelBlock_registers (targetFits_channel htarget) ws p hheld)
  | route => exact blockApplied_written (writeRouteBlock_registers _ ws p hheld)
  | group => exact blockApplied_written (writeGroupBlock_registers _ ws p d)

/-! ### A block held whole, and the reading of the next one (R169, R173, R178) -/

theorem judgeBlock_eq {d : Device} (hheld : d.held = false) (staged : List Byte) :
    judgeBlock { d with preload := { d.preload with staging := staged } } = blockJudged staged d := by
  unfold judgeBlock blockJudged
  dsimp only
  rcases blockFault_eq d (wordsOf staged) with ⟨r, hskip, hfault⟩ | ⟨t, hskip, hfault, hcode, htarget⟩
  · rw [show blockFault { d with preload := { d.preload with staging := staged } } (wordsOf staged) = .inl r from hfault, hskip]
    exact nextBlock_eq _
  · rw [show blockFault { d with preload := { d.preload with staging := staged } } (wordsOf staged) = .inr t from hfault, hskip, hcode]
    have hwrite := fun hplan hring => writeBlock_register (t := t) hplan hring (wordsOf staged)
      { d.preload with staging := staged } hheld htarget
    cases t with
    | plan => rfl
    | ring => rfl
    | dwell => exact hwrite (by decide) (by decide)
    | channel => exact hwrite (by decide) (by decide)
    | route => exact hwrite (by decide) (by decide)
    | group => exact hwrite (by decide) (by decide)

/-- Reading on in a block: the next part of it in transfer, or the block judged. -/
theorem readBody_eq {d : Device} (hheld : d.held = false) (staged : List Byte) :
    readBody { d with preload := { d.preload with staging := staged } } =
      if staged.length < 6 + (wordAt (wordsOf staged) 1).toNat then
        { d with
          preload :=
            { d.preload with
              staging := staged
              work := .transfer
                { kind := .body, device := 0x50 + d.preload.strapAddress.setWidth 7
                  address := d.preload.blockAddress + staged.length
                  length := min 32 (6 + (wordAt (wordsOf staged) 1).toNat - staged.length), retries := 0 } } }
      else blockJudged staged d := by
  by_cases h : staged.length < 6 + (wordAt (wordsOf staged) 1).toNat
  · exact (if_neg (by change ¬ (6 + (wordAt (wordsOf staged) 1).toNat - staged.length = 0); omega)).trans (if_pos h).symm
  · refine Eq.trans (if_pos ?_) ((judgeBlock_eq hheld staged).trans (if_neg h).symm)
    change 6 + (wordAt (wordsOf staged) 1).toNat - staged.length = 0
    omega

/-- The head of a block is judged: FORMAT where the image cannot be walked further, and else the block is read on. -/
theorem judgeHead_eq (data : List Byte) (d : Device) :
    judgeHead { d with preload := { d.preload with staging := data } } =
      if (wordAt (wordsOf data) 1).toNat % 2 = 1 ∨ 64 < (wordAt (wordsOf data) 1).toNat
          ∨ d.preload.imageLength < d.preload.blockAddress + 6 + (wordAt (wordsOf data) 1).toNat then failPreload .format d
      else readBody { d with preload := { d.preload with staging := data } } := rfl

theorem failPreload_eq (cause : PreloadCause) (d : Device) :
    failPreload cause d =
      { d with
        raised := d.raised ++ [.preloadFail]
        preload := { d.preload with state := .failed, cause := cause, work := .idle, staging := [] } } := rfl

theorem judgeHeader_fault {ws : List BusWord} {f : HeaderFault} (h : headerFaultOf ws = f) (hne : f ≠ .none) (d : Device) :
    judgeHeader ws d = failPreload .header (modPreload (fun x => { x with headerFault := f }) d) := by
  unfold judgeHeader
  rw [h]
  cases f with
  | none => exact absurd rfl hne
  | checksum => rfl
  | signature => rfl
  | version => rfl
  | count => rfl
  | length => rfl

theorem judgeHeader_eq (ws : List BusWord) (d : Device) :
    judgeHeader ws d =
      let x := d.preload
      let n := (wordAt ws 2).toNat
      let length := (wordAt ws 3).toNat
      let fails := fun (f : HeaderFault) =>
        ({ d with
            raised := d.raised ++ [.preloadFail]
            preload := { x with state := .failed, cause := .header, headerFault := f, work := .idle, staging := [] } } : Device)
      if wordSum ws ≠ 0 then fails .checksum
      else if wordAt ws 0 ≠ 0xC318 then fails .signature
      else if wordAt ws 1 ≠ 1 then fails .version
      else if n = 0 ∨ 64 < n then fails .count
      else if length < 16 + 8 * n ∨ 16 + 70 * n < length then fails .length
      else
        { d with
          preload :=
            { x with
              state := .blocks, imageId := wordAt ws 6 ++ wordAt ws 5,
              enableMask := (wordAt ws 4).extractLsb' 0 8, startMask := (wordAt ws 4).extractLsb' 8 8,
              blockNumber := 1, blockCount := n, imageLength := length, blockAddress := 16, staging := [],
              work := .transfer
                { kind := .head, device := 0x50 + x.strapAddress.setWidth 7, address := 16, length := 4, retries := 0 } } } := by
  dsimp only
  split_ifs with hsum hsignature hversion hcount hlength
  · exact judgeHeader_fault (if_pos hsum) (by decide) d
  · exact judgeHeader_fault ((if_neg hsum).trans (if_pos hsignature)) (by decide) d
  · exact judgeHeader_fault ((if_neg hsum).trans ((if_neg hsignature).trans (if_pos hversion))) (by decide) d
  · exact judgeHeader_fault ((if_neg hsum).trans ((if_neg hsignature).trans ((if_neg hversion).trans (if_pos hcount)))) (by decide) d
  · exact judgeHeader_fault ((if_neg hsum).trans ((if_neg hsignature).trans ((if_neg hversion).trans ((if_neg hcount).trans
      (if_pos hlength))))) (by decide) d
  · have hnone : headerFaultOf ws = .none := (if_neg hsum).trans ((if_neg hsignature).trans ((if_neg hversion).trans
      ((if_neg hcount).trans (if_neg hlength))))
    unfold judgeHeader
    rw [hnone, ← lowByte_eq]
    rfl

/-! ### The serial memory's rows (R169 to R171) -/

/-- The address byte of a transfer: the device address and the direction. -/
theorem addressByte (a : BitVec 7) (r : BitVec 1) : a ++ r = BitVec.ofNat 8 (2 * a.toNat + r.toNat) := by
  apply BitVec.eq_of_toNat_eq
  have hr := r.isLt
  have ha := a.isLt
  rw [BitVec.toNat_append, BitVec.toNat_ofNat, Nat.shiftLeft_eq, Nat.mul_comm, ← Nat.two_pow_add_eq_or_of_lt hr]
  omega

theorem beginBlock_begun (d : Device) : beginBlock (blockBegun d) = blockBegun d :=
  beginBlock_of_ne fun h => by cases h

theorem takeTransfer_transfer {t : Transfer} {data : List Byte} (h : d.preload.work = .transfer t) :
    takeTransfer data d = if data.length = t.length then transferDone t data d else d := by
  unfold takeTransfer
  rw [beginBlock_of_ne (fun hb => by rw [h] at hb; cases hb)]
  dsimp only
  rw [h]

theorem takeTransfer_between {data : List Byte} (h : d.preload.work = .between) :
    takeTransfer data d = if data.length = 4 then takeTransfer data (blockBegun d) else d := by
  unfold takeTransfer
  rw [beginBlock_eq h, beginBlock_begun]
  change (if data.length = 4 then transferDone _ data (blockBegun d) else d)
    = if data.length = 4 then (if data.length = 4 then transferDone _ data (blockBegun d) else blockBegun d) else d
  by_cases hlength : data.length = 4
  · rw [if_pos hlength, if_pos hlength, if_pos hlength]
  · rw [if_neg hlength, if_neg hlength]

theorem takeTransfer_other {data : List Byte} (ht : ∀ t, d.preload.work = .transfer t → data.length ≠ t.length)
    (hb : d.preload.work = .between → data.length ≠ 4) : takeTransfer data d = d := by
  cases hwork : d.preload.work with
  | transfer t => rw [takeTransfer_transfer hwork, if_neg (ht t hwork)]
  | between => rw [takeTransfer_between hwork, if_neg (hb hwork)]
  | _ =>
    unfold takeTransfer
    rw [beginBlock_of_ne (by rw [hwork]; intro h; cases h)]
    dsimp only
    rw [hwork]

theorem takeNack_transfer {t : Transfer} (h : d.preload.work = .transfer t) :
    takeNack d =
      if t.retries < 3 then { d with preload := { d.preload with work := .retryWait { t with retries := t.retries + 1 } } }
      else failPreload .noAck d := by
  unfold takeNack
  rw [beginBlock_of_ne (fun hb => by rw [h] at hb; cases hb)]
  dsimp only
  rw [h]
  rfl

theorem takeNack_between (h : d.preload.work = .between) : takeNack d = takeNack (blockBegun d) := by
  unfold takeNack
  rw [beginBlock_eq h, beginBlock_begun]
  rfl

theorem takeTimeout_transfer {t : Transfer} (h : d.preload.work = .transfer t) : takeTimeout d = failPreload .busTimeout d := by
  unfold takeTimeout
  rw [beginBlock_of_ne (fun hb => by rw [h] at hb; cases hb)]
  dsimp only
  rw [h]

theorem takeTimeout_between (h : d.preload.work = .between) : takeTimeout d = takeTimeout (blockBegun d) := by
  unfold takeTimeout
  rw [beginBlock_eq h, beginBlock_begun]
  rfl

theorem serialPort_transfer {t : Transfer} (h : d.preload.work = .transfer t) :
    serialPort d = some
      ([BitVec.ofNat 8 (2 * t.device.toNat), BitVec.ofNat 8 (t.address / 256), BitVec.ofNat 8 t.address,
          BitVec.ofNat 8 (2 * t.device.toNat + 1)],
        List.replicate (t.length - 1) true ++ [false]) := by
  unfold serialPort sentBytes acknowledges
  rw [h]
  dsimp only
  rw [addressByte, addressByte]
  rfl

theorem serialPort_between (h : d.preload.work = .between) : serialPort d = none := by
  unfold serialPort
  rw [h]

/-! ### The grants of a PLAN or RING block (R174) -/

theorem writeWords_arbiter (x : Arbiter) (ws : List BusWord) :
    ∀ (a : Nat) (d : Device), writeWords a ws { d with arbiter := x } = { writeWords a ws d with arbiter := x } := by
  induction ws with
  | nil => exact fun a d => rfl
  | cons w ws ih => exact fun a d => ih (a + 2) (writeWord a w d)

theorem writeTarget_served (t : RamTarget) (d : Device) :
    writeTarget t (served reqPreload d) = { writeTarget t d with arbiter := { settled d with lastServed := reqPreload } } := by
  cases t with
  | entry i ws => exact writeWords_arbiter _ ws _ d
  | control c p w => rfl

theorem writeTarget_preload (t : RamTarget) (d : Device) : (writeTarget t d).preload = d.preload := by
  cases t with
  | entry i ws => have h := congrArg Device.preload (writeWords_eq (entryAddr i) ws d); exact h
  | control c p w => rfl

theorem takeRamWrite_granted {t : RamTarget} {ts : List RamTarget} (h : d.preload.work = .writing (t :: ts))
    (hg : granted d reqPreload = true) :
    takeRamWrite d =
      let e : Device := { writeTarget t d with arbiter := { settled d with lastServed := reqPreload } }
      if ts = [] then
        preloadGoesOn (blockExtent d.preload) { e with preload := { d.preload with applied := d.preload.applied + 1 } }
      else { e with preload := { d.preload with work := .writing ts } } := by
  unfold takeRamWrite
  rw [if_pos hg, h]
  cases ts with
  | nil =>
    refine Eq.trans ?_ (if_pos rfl).symm
    dsimp only
    rw [writeTarget_served]
    have hpreload := writeTarget_preload t d
    generalize writeTarget t d = e at hpreload
    rw [← hpreload]
    exact blockApplied_eq { e with arbiter := { settled d with lastServed := reqPreload } } e.preload
  | cons u us =>
    refine Eq.trans ?_ (if_neg (by simp)).symm
    dsimp only
    rw [writeTarget_served]
    have hpreload := writeTarget_preload t d
    generalize writeTarget t d = e at hpreload
    unfold modPreload
    dsimp only
    rw [hpreload]

/-- Settles O59: each row by the work it finds, the header by R172's conditions in order, and a block by R173's. -/
theorem preloadTransfersAndBlocks : Obligations.PreloadTransfersAndBlocks := by
  unfold Obligations.PreloadTransfersAndBlocks
  intro s hheld
  dsimp only
  refine ⟨fun t ht => serialPort_transfer ht, fun data ht hb => ?_, fun hb => ?_, fun data t ht hlength => ?_, fun t ht => ?_,
    fun t ht => ?_, fun t ts ht hg => ?_⟩
  · exact next_dev ((happening_running hheld).trans (takeTransfer_other ht hb))
  · refine ⟨serialPort_between hb, fun data hlength => ?_, ?_, ?_⟩
    · exact next_dev ((happening_running hheld).trans (((takeTransfer_between hb).trans (if_pos hlength)).trans
        (happening_running (d := blockBegun s.dev) hheld).symm))
    · exact next_dev ((happening_running hheld).trans ((takeNack_between hb).trans
        (happening_running (d := blockBegun s.dev) hheld).symm))
    · exact next_dev ((happening_running hheld).trans ((takeTimeout_between hb).trans
        (happening_running (d := blockBegun s.dev) hheld).symm))
  · have htake : happening (takeTransfer data) s.dev = transferDone t data s.dev :=
      (happening_running hheld).trans ((takeTransfer_transfer ht).trans (if_pos hlength))
    refine ⟨fun hk => next_dev (htake.trans ?_), fun hk => next_dev (htake.trans ?_), fun hk => next_dev (htake.trans ?_)⟩
    · unfold transferDone
      rw [hk]
      exact judgeHeader_eq _ _
    · unfold transferDone
      rw [hk]
      exact (judgeHead_eq data s.dev).trans (congrArg (ite _ _) (readBody_eq hheld data))
    · unfold transferDone
      rw [hk]
      exact readBody_eq hheld _
  · refine ⟨next_dev ((happening_running hheld).trans ((takeNack_transfer ht).trans ?_)),
      next_dev ((happening_running hheld).trans (takeTimeout_transfer ht))⟩
    rfl
  · refine next_dev ((happening_running hheld).trans ?_)
    unfold takeRetry
    rw [ht]
    rfl
  · refine next_dev ((happening_running hheld).trans ((takeRamWrite_granted ht hg).trans ?_))
    cases t with
    | entry i ws => rfl
    | control c p w => rfl

end Sys2Proof.Machine
end

section
/-! The rules of the channel states, of the checkers in OFF and of a preload in progress (R9, R28, R43, R44, R46, R145, R168), and what
the operations on one channel keep of them. -/

namespace Sys2Proof.Machine

-- One theorem after another: a thread for each would take the memory a check allows.
set_option Elab.async false

open Sys2Proof

/-! ### The rules of one channel -/

/-- OFF or IDLE: where every channel stands while a preload is in progress (R145). -/
def restful (k : Controller) : Prop := k.state = .off ∨ k.state = .idle

/-- In SWEEP or TRACK. -/
def working (k : Controller) : Prop := k.state = .sweep ∨ k.state = .track

/-- What holds of a controller in SWEEP, whatever its task and its current entry. -/
def sweepFrame (k : Controller) : Prop :=
  (k.origin = .sweep ∨ k.origin = .single) ∧ k.window.isSome = true ∧ k.force.isSome = true ∧ k.anchor = none
    ∧ (k.message.isSome = true → k.group.isSome = true)
    ∧ ∀ q, k.prior = some q → q.applied.isSome = true → q.window.isSome = true

/-- What holds of a controller in TRACK, whatever its task. -/
def trackFrame (k : Controller) : Prop :=
  k.origin = .track ∧ k.current.isSome = true ∧ k.window.isSome = true ∧ k.force.isSome = true ∧ k.anchor.isSome = true
    ∧ k.group = none ∧ k.message = none

/-- What holds of a controller in SWEEP or TRACK, whatever its task. -/
def workFrame (k : Controller) : Prop :=
  match k.state with
  | .sweep => sweepFrame k
  | .track => trackFrame k
  | .off | .idle | .applied | .halted => False

/-- The task of a controller in SWEEP or TRACK is one of its state's; a SELECTED summary that waits has its entry applied. -/
def taskRule (k : Controller) : Prop :=
  match k.state with
  | .sweep => sweepTask k.task = true ∧ (endsSelected k.task = true → k.current.isSome = true)
  | .track => trackTask k.task = true
  | .off | .idle | .applied | .halted => False

theorem working_not_restful {k : Controller} (h : working k) : ¬ restful k := by
  rintro (hr | hr) <;> rcases h with h | h <;> rw [hr] at h <;> cases h

theorem stateRule_working {k : Controller} {front : Settings} (h : working k) : stateRule k front ↔ workFrame k ∧ taskRule k := by
  unfold stateRule workFrame taskRule sweepFrame trackFrame
  rcases h with h | h <;> rw [h] <;> dsimp only <;> tauto

/-- A task that both states have, the SELECTED summary apart. -/
theorem taskRule_shared {k : Controller} (h : working k) (hs : sweepTask k.task = true) (ht : trackTask k.task = true)
    (he : endsSelected k.task = false) : taskRule k := by
  unfold taskRule
  rcases h with h | h <;> rw [h] <;> dsimp only
  · exact ⟨hs, fun h' => by rw [he] at h'; cases h'⟩
  · exact ht

theorem taskRule_sweep {k : Controller} (h : k.state = .sweep) (hs : sweepTask k.task = true) (he : endsSelected k.task = false) :
    taskRule k := by
  unfold taskRule
  rw [h]
  exact ⟨hs, fun h' => by rw [he] at h'; cases h'⟩

theorem taskRule_track {k : Controller} (h : k.state = .track) (ht : trackTask k.task = true) : taskRule k := by
  unfold taskRule
  rw [h]
  exact ht

/-- A channel in SWEEP or TRACK keeps the rule by its controller alone, and by its checker where the Checker Mode is OFF. -/
theorem chanRule_working {k : Channel} (h : working k.ctl) :
    chanRule k ↔ (workFrame k.ctl ∧ taskRule k.ctl) ∧ (k.chk.mode = .off → k.chk.state = .off) := by
  unfold chanRule
  rw [stateRule_working h]
  have hoff : k.ctl.state ≠ .off := fun ho => working_not_restful h (.inl ho)
  simp only [hoff, false_or]

/-- Outside SWEEP and TRACK a channel does no work. -/
theorem noWork_of_not_working {k : Controller} {front : Settings} (h : stateRule k front) (hw : ¬ working k) : noWork k := by
  refine noWork_of_rule h ?_
  unfold working at hw
  cases hs : k.state <;> simp_all

theorem frame_sweep {k : Channel} (h : chanRule k) (hs : k.ctl.state = .sweep) : sweepFrame k.ctl := by
  have hframe := ((chanRule_working (.inl hs)).mp h).1.1
  unfold workFrame at hframe
  rw [hs] at hframe
  exact hframe

theorem frame_track {k : Channel} (h : chanRule k) (hs : k.ctl.state = .track) : trackFrame k.ctl := by
  have hframe := ((chanRule_working (.inr hs)).mp h).1.1
  unfold workFrame at hframe
  rw [hs] at hframe
  exact hframe

theorem task_sweep {k : Channel} (h : chanRule k) (hs : k.ctl.state = .sweep) : sweepTask k.ctl.task = true := by
  have htask := ((chanRule_working (.inl hs)).mp h).1.2
  unfold taskRule at htask
  rw [hs] at htask
  exact htask.1

theorem task_track {k : Channel} (h : chanRule k) (hs : k.ctl.state = .track) : trackTask k.ctl.task = true := by
  have htask := ((chanRule_working (.inr hs)).mp h).1.2
  unfold taskRule at htask
  rw [hs] at htask
  exact htask

/-- A channel with a task works, in the state that the task is of. -/
theorem task_working {k : Channel} (h : chanRule k) (ht : k.ctl.task ≠ .idle) :
    (k.ctl.state = .sweep ∧ sweepTask k.ctl.task = true) ∨ (k.ctl.state = .track ∧ trackTask k.ctl.task = true) := by
  by_cases hw : working k.ctl
  · exact hw.imp (fun hs => ⟨hs, task_sweep h hs⟩) fun hs => ⟨hs, task_track h hs⟩
  · exact absurd (noWork_of_not_working h.1 hw).1 ht

/-- A channel that takes part in a group's sweep is in SWEEP. -/
theorem member_sweeps {k : Channel} (h : chanRule k) (hg : k.ctl.group ≠ none) : k.ctl.state = .sweep := by
  by_cases hw : working k.ctl
  · rcases hw with hs | hs
    · exact hs
    · obtain ⟨_, _, _, _, _, hnone, _⟩ := frame_track h hs
      exact absurd hnone hg
  · obtain ⟨_, _, _, _, _, hnone, _⟩ := noWork_of_not_working h.1 hw
    exact absurd hnone hg

/-- A channel that has been handed a message takes part in a group's sweep. -/
theorem message_member {k : Channel} (h : chanRule k) (hm : k.ctl.message ≠ none) : k.ctl.group ≠ none := by
  by_cases hw : working k.ctl
  · rcases hw with hs | hs
    · obtain ⟨_, _, _, _, hmember, _⟩ := frame_sweep h hs
      exact Option.isSome_iff_ne_none.mp (hmember (Option.isSome_iff_ne_none.mpr hm))
    · obtain ⟨_, _, _, _, _, _, hnone⟩ := frame_track h hs
      exact absurd hnone hm
  · obtain ⟨_, _, _, _, _, _, hnone⟩ := noWork_of_not_working h.1 hw
    exact absurd hnone hm

/-! ### The rules of the part -/

/-- The rules hold, a preload is in progress or not as `p` says, and `x` is the ending that stands between its two fills. -/
structure Ruled (p : Bool) (x : Option Ending) (d : Device) : Prop where
  states : statesRule d
  active : preloadActive d = p
  ending : d.ending = x

namespace Ruled

variable {p : Bool} {x : Option Ending} {d e : Device} {c : Chan}

theorem chan (h : Ruled p x d) (c : Chan) : chanRule (d.chan c) := h.states.1 c

/-- With a channel out of OFF and IDLE no preload is in progress. -/
theorem awake (h : Ruled p x d) (hc : ¬ restful (d.ctl c)) : Ruled false x d := by
  cases p with
  | false => exact h
  | true => exact absurd (h.states.2.1 h.active c) hc

theorem awakeSweep (h : Ruled p x d) (hs : (d.ctl c).state = .sweep) : Ruled false x d := h.awake (working_not_restful (.inl hs))

/-- Channels change, each keeping its rule, and the preload stays as it was. -/
theorem mapped (h : Ruled p x d) (hpreload : e.preload = d.preload) (hending : e.ending = d.ending)
    (hc : ∀ c, chanRule (d.chan c) → chanRule (e.chan c) ∧ (p = true → restful (d.ctl c) → restful (e.ctl c))) : Ruled p x e := by
  have hactive : preloadActive e = preloadActive d := by simp only [preloadActive, hpreload]
  refine ⟨⟨fun b => (hc b (h.chan b)).1, fun hp b => ?_, ?_⟩, hactive.trans h.active, hending.trans h.ending⟩
  · rw [hactive] at hp
    exact (hc b (h.chan b)).2 (h.active ▸ hp) (h.states.2.1 hp b)
  · rw [hpreload, hactive]
    exact h.states.2.2

/-- The channels and the preload as they were. -/
theorem ofSame (h : Ruled p x d) (hchans : e.chans = d.chans := by rfl) (hpreload : e.preload = d.preload := by rfl)
    (hending : e.ending = d.ending := by rfl) : Ruled p x e :=
  h.mapped hpreload hending fun b hb => by
    simp only [Device.chan, Device.ctl, hchans]
    exact ⟨hb, fun _ => id⟩

/-- One channel changes and keeps its rule. -/
theorem oneChan (h : Ruled p x d) {f : Channel → Channel} (hf : chanRule (d.chan c) → chanRule (f (d.chan c)))
    (hr : p = true → restful (d.ctl c) → restful (f (d.chan c)).ctl) : Ruled p x (modChan c f d) :=
  h.mapped rfl rfl fun b hb => by
    rw [modChan_chan, modChan_ctl]
    split
    · next hbc => subst hbc; exact ⟨hf hb, hr⟩
    · exact ⟨hb, fun _ => id⟩

/-- One channel changes, its state not. -/
theorem same (h : Ruled p x d) {f : Channel → Channel} (hf : chanRule (d.chan c) → chanRule (f (d.chan c)))
    (hs : (f (d.chan c)).ctl.state = (d.ctl c).state := by rfl) : Ruled p x (modChan c f d) :=
  h.oneChan hf fun _ hr => by unfold restful; rw [hs]; exact hr

/-- One channel changes while no preload is in progress. -/
theorem modChan (h : Ruled false x d) {f : Channel → Channel} (hf : chanRule (d.chan c) → chanRule (f (d.chan c))) :
    Ruled false x (modChan c f d) := h.oneChan hf fun hp => by cases hp

/-- A controller changes in nothing that the rule of its state speaks of. -/
theorem modCtl (h : Ruled p x d) {f : Controller → Controller}
    (hf : chanRule (d.chan c) → chanRule { d.chan c with ctl := f (d.ctl c) } := by exact id)
    (hs : (f (d.ctl c)).state = (d.ctl c).state := by rfl) : Ruled p x (modCtl c f d) :=
  h.same (f := fun k => { k with ctl := f k.ctl }) hf hs

theorem raise (h : Ruled p x d) {v : ChanEvent} : Ruled p x (raise c v d) := h.same id

theorem raiseIf (h : Ruled p x d) {b : Bool} {v : ChanEvent} : Ruled p x (raiseIf b c v d) := by
  unfold Machine.raiseIf
  split
  · exact h.raise
  · exact h

theorem served (h : Ruled p x d) {r : Requester} : Ruled p x (served r d) := h.ofSame
theorem servedGroup (h : Ruled p x d) {g : Grp} : Ruled p x (servedGroup g d) := h.ofSame
theorem takeTurn (h : Ruled p x d) : Ruled p x (takeTurn c d) := h.ofSame
theorem devRaise (h : Ruled p x d) {v : DevEvent} : Ruled p x (devRaise v d) := h.ofSame
theorem badWrite (h : Ruled p x d) {w : WriteFault} {o : Nat} : Ruled p x (badWrite w o d) := h.ofSame
theorem modGroup (h : Ruled p x d) {g : Grp} {f : Group → Group} : Ruled p x (modGroup g f d) := h.ofSame
theorem writeWord (h : Ruled p x d) {a : Nat} {v : BusWord} : Ruled p x (writeWord a v d) := h.ofSame
theorem countFree (h : Ruled p x d) : Ruled p x { d with free := d.free + 1 } := h.ofSame

theorem paceRefresh (h : Ruled p x d) : Ruled p x (paceRefresh d) := by
  unfold Machine.paceRefresh
  split
  · split
    · exact h
    · exact h.ofSame
  · exact h.ofSame

theorem writeWords (h : Ruled p x d) {a : Nat} {ws : List BusWord} : Ruled p x (writeWords a ws d) := by
  induction ws generalizing a d with
  | nil => exact h
  | cons w ws ih => exact ih h.writeWord

theorem refuse (h : Ruled p x d) {code : BitVec 8} {st : LastStatus} : Ruled p x (refuse code st c d) := h.modCtl.raise
theorem accept (h : Ruled p x d) {code : BitVec 8} {st : LastStatus} : Ruled p x (accept code st c d) := h.modCtl

theorem showProgress (h : Ruled p x d) {q : CheckProgress} : Ruled p x (showProgress c q d) := by
  unfold Machine.showProgress
  split
  · exact h.modCtl
  · exact h.countFree.modCtl

theorem showResult (h : Ruled p x d) {r : CheckResult} {i : Idx} : Ruled p x (showResult c r i d) := h.modCtl
theorem showAbandoned (h : Ruled p x d) : Ruled p x (showAbandoned c d) := h.modCtl
theorem showFetchFailure (h : Ruled p x d) {r : CheckResult} {i : Idx} : Ruled p x (showFetchFailure c r i d) := h.modCtl

/-! ### Records -/

theorem writeRecord (h : Ruled p x d) {r : Record} : Ruled p x (writeRecord c r d) := by
  unfold Machine.writeRecord
  dsimp only
  split
  · exact h.writeWords.writeWord.modCtl.raise
  · exact h.writeWords.writeWord.modCtl

theorem discardRecord (h : Ruled p x d) : Ruled p x (discardRecord c d) := h.modCtl.raise

theorem endingWrite (h : Ruled p x d) {r : Record} : Ruled p x (endingWrite c r d) := by
  unfold Machine.endingWrite
  split
  · exact h.writeRecord.takeTurn
  · exact h.discardRecord.takeTurn

theorem endingWriteOpt (h : Ruled p x d) {r : Option Record} : Ruled p x (endingWriteOpt c r d) := by
  cases r with
  | none => exact h
  | some r => exact h.endingWrite

/-! ### Checkers (R28) -/

/-- A checker keeps its mode, and stays in OFF. -/
def staysOff (k k' : Checker) : Prop := k'.mode = k.mode ∧ (k.state = .off → k'.state = .off)

theorem atChecker (h : Ruled p x d) {f : Checker → CheckerStep} (hf : staysOff (d.chan c).chk (f (d.chan c).chk).chk) :
    Ruled p x (atChecker c f d) :=
  h.same fun hk => ⟨hk.1, fun ho => hf.2 (hk.2 (hf.1 ▸ ho))⟩

theorem foldl_ruled {α : Type} (h : Ruled p x d) {f : Device → α → Device} (l : List α) (hf : ∀ e a, Ruled p x e → Ruled p x (f e a)) :
    Ruled p x (l.foldl f d) := by
  induction l generalizing d with
  | nil => exact h
  | cons a l ih => exact ih (hf d a h)

theorem forMask (h : Ruled p x d) {m : BitVec 8} {f : Chan → Device → Device} (hf : ∀ c e, Ruled p x e → Ruled p x (f c e)) :
    Ruled p x (forMask m f d) := forMask_induct (Ruled p x) h fun c e _ he => hf c e he

theorem forChans (h : Ruled p x d) {f : Chan → Device → Device} (hf : ∀ c e, Ruled p x e → Ruled p x (f c e)) :
    Ruled p x (forChans f d) := h.foldl_ruled allChans fun e c => hf c e

theorem reportChanged (h : Ruled p x d) {r : Chan} {b : Bool} : Ruled p x (reportChanged r b d) := by
  have hreport : ∀ k : Checker, staysOff k (chkReport b k).chk := fun k => by
    unfold chkReport
    split <;> exact ⟨rfl, fun hk => by simp_all [chkStay]⟩
  unfold Machine.reportChanged
  split
  · refine h.forChans fun c e' h' => ?_
    split
    · exact h'.atChecker (hreport _)
    · exact h'
  · exact h

end Ruled

end Sys2Proof.Machine
end

section
/-! What the work of a channel in SWEEP or TRACK keeps of the rules of its state (R9, R43, R44, R46, R96). -/

namespace Sys2Proof.Machine

-- One theorem after another: a thread for each would take the memory a check allows.
set_option Elab.async false

open Sys2Proof

namespace Ruled

variable {p : Bool} {x : Option Ending} {d e : Device} {c : Chan}

/-! ### Work under way -/

/-- A channel in SWEEP or TRACK goes on in its state. -/
theorem work (h : Ruled false x d) (hw : working (d.ctl c)) {f : Channel → Channel}
    (hf : workFrame (d.ctl c) → taskRule (d.ctl c) → workFrame (f (d.chan c)).ctl ∧ taskRule (f (d.chan c)).ctl)
    (hs : (f (d.chan c)).ctl.state = (d.ctl c).state := by rfl) (hmode : (f (d.chan c)).chk.mode = (d.chan c).chk.mode := by rfl)
    (hchk : (f (d.chan c)).chk.state = (d.chan c).chk.state := by rfl) : Ruled false x (Machine.modChan c f d) :=
  h.modChan fun hk => by
    obtain ⟨⟨hframe, htask⟩, hoff⟩ := (chanRule_working hw).mp hk
    have hw' : working (f (d.chan c)).ctl := by unfold working; rw [hs]; exact hw
    exact (chanRule_working hw').mpr ⟨hf hframe htask, by rw [hmode, hchk]; exact hoff⟩

/-- A channel in SWEEP turns to another task of SWEEP. -/
theorem sweepWork (h : Ruled false x d) (hs : (d.ctl c).state = .sweep) {f : Channel → Channel}
    (ht : sweepTask (f (d.chan c)).ctl.task = true)
    (he : endsSelected (f (d.chan c)).ctl.task = true → (f (d.chan c)).ctl.current.isSome = true)
    (hf : sweepFrame (d.ctl c) → sweepFrame (f (d.chan c)).ctl := by exact id)
    (hs' : (f (d.chan c)).ctl.state = (d.ctl c).state := by rfl) (hmode : (f (d.chan c)).chk.mode = (d.chan c).chk.mode := by rfl)
    (hchk : (f (d.chan c)).chk.state = (d.chan c).chk.state := by rfl) : Ruled false x (Machine.modChan c f d) :=
  h.work (.inl hs) (hs := hs') (hmode := hmode) (hchk := hchk) fun hframe _ => by
    unfold workFrame taskRule
    unfold workFrame at hframe
    rw [hs] at hframe
    rw [hs', hs]
    exact ⟨hf hframe, ht, he⟩

/-- A channel in TRACK turns to another task of TRACK. -/
theorem trackWork (h : Ruled false x d) (hs : (d.ctl c).state = .track) {f : Channel → Channel}
    (ht : trackTask (f (d.chan c)).ctl.task = true) (hf : trackFrame (d.ctl c) → trackFrame (f (d.chan c)).ctl := by exact id)
    (hs' : (f (d.chan c)).ctl.state = (d.ctl c).state := by rfl) (hmode : (f (d.chan c)).chk.mode = (d.chan c).chk.mode := by rfl)
    (hchk : (f (d.chan c)).chk.state = (d.chan c).chk.state := by rfl) : Ruled false x (Machine.modChan c f d) :=
  h.work (.inr hs) (hs := hs') (hmode := hmode) (hchk := hchk) fun hframe _ => by
    unfold workFrame taskRule
    unfold workFrame at hframe
    rw [hs] at hframe
    rw [hs', hs]
    exact ⟨hf hframe, ht⟩

/-- The task tells the state. -/
theorem sweeps (h : Ruled p x d) (hne : (d.ctl c).task ≠ .idle) (ht : trackTask (d.ctl c).task = false) : (d.ctl c).state = .sweep := by
  rcases task_working (h.chan c) hne with ⟨hs, _⟩ | ⟨_, htrack⟩
  · exact hs
  · exact absurd (htrack.symm.trans ht) (by decide)

theorem tracks (h : Ruled p x d) (hne : (d.ctl c).task ≠ .idle) (ht : sweepTask (d.ctl c).task = false) : (d.ctl c).state = .track := by
  rcases task_working (h.chan c) hne with ⟨_, hsweep⟩ | ⟨hs, _⟩
  · exact absurd (hsweep.symm.trans ht) (by decide)
  · exact hs

theorem works (h : Ruled p x d) (hne : (d.ctl c).task ≠ .idle) : working (d.ctl c) := (task_working (h.chan c) hne).imp And.left And.left

/-! ### Ends of work -/

/-- What an end of work at rest may lead to: IDLE always, HALTED only while no preload is in progress. -/
theorem toRest (h : Ruled p x d) {st : ChanState} (hst : st = .idle ∨ st = .halted ∧ p = false) : Ruled p x (toRest c st d) :=
  h.oneChan
    (fun hk => by
      refine ⟨?_, fun ho => hk.2 (.inr ?_)⟩
      · rcases hst with rfl | ⟨rfl, _⟩ <;> exact ⟨⟨rfl, rfl, rfl, rfl, rfl, rfl, rfl⟩, rfl, rfl, rfl⟩
      · rcases ho with ho | ho
        · rcases hst with rfl | ⟨rfl, _⟩ <;> cases ho
        · exact ho)
    fun hp _ => by
      rcases hst with rfl | ⟨_, hpf⟩
      · exact .inr rfl
      · rw [hpf] at hp; cases hp

theorem closeWith (h : Ruled p x d) {k : Closing} {swept : Bool} (hk : k = .abort ∨ p = false) : Ruled p x (closeWith k swept c d) := by
  unfold Machine.closeWith
  cases k with
  | halt cause reports =>
    have hp : p = false := hk.resolve_left (by simp)
    exact (h.toRest (.inr ⟨rfl, hp⟩)).modCtl.raiseIf.raise
  | abort => exact (h.toRest (.inl rfl)).raiseIf

/-- A channel whose current entry is applied enters APPLIED. -/
theorem enterApplied (h : Ruled false x d) (hcurrent : (d.ctl c).current.isSome = true) (hwindow : (d.ctl c).window.isSome = true) :
    Ruled false x (enterApplied c d) :=
  h.modChan fun hk =>
    ⟨⟨⟨rfl, rfl, rfl, rfl, rfl, rfl, rfl⟩, hcurrent, hwindow⟩, fun ho => hk.2 (.inr (ho.resolve_left (by simp)))⟩

end Ruled

/-- What may follow a record that waits, by the channel's state. -/
def followRule (k : Controller) (a : After) : Prop :=
  (k.state = .sweep ∧ sweepAfter a = true ∧ ∀ solo, a = .selected solo → k.current.isSome = true)
    ∨ (k.state = .track ∧ sweepAfter a = false)

/-! ### Endings (R62, R86, R180) -/

theorem endingWriteOpt_state (c : Chan) (r : Option Record) (d : Device) : ((endingWriteOpt c r d).ctl c).state = (d.ctl c).state := by
  cases r with
  | none => rfl
  | some r =>
    obtain ⟨n, m, hctl⟩ := endingWrite_ctl_self c r d
    have hstate := congrArg Controller.state hctl
    exact hstate

/-- The rules hold, and no ending has come to stand but one of channel `c`, in SWEEP, where the host waits (`w`). -/
structure Closes (w p : Bool) (x : Option Ending) (c : Chan) (d : Device) : Prop where
  states : statesRule d
  active : preloadActive d = p
  ending : d.ending = x ∨ (w = true ∧ ∃ e, d.ending = some e ∧ e.chan = c ∧ (d.ctl c).state = .sweep)

theorem Closes.ruled {p : Bool} {x : Option Ending} {c : Chan} {d : Device} (h : Closes false p x c d) : Ruled p x d :=
  ⟨h.states, h.active, h.ending.resolve_right fun hw => absurd hw.1 (by decide)⟩

/-- The endings that still stand once the host's write of ring `c` has been served. -/
def leftStanding (c : Chan) (x : Option Ending) : Option Ending :=
  match x with
  | some e => if e.chan = c then none else some e
  | none => none

namespace Ruled

variable {p : Bool} {x : Option Ending} {d e : Device} {c : Chan}

theorem closes (h : Ruled p x d) {w : Bool} : Closes w p x c d := ⟨h.states, h.active, .inl h.ending⟩

theorem endWith (h : Ruled p x d) {w : Bool} {point summary : Option Record} {k : Closing} (hk : k = .abort ∨ p = false)
    (hs : summary.isSome = true → (d.ctl c).state = .sweep) : Closes w p x c (endWith w point summary k c d) := by
  unfold Machine.endWith
  cases summary with
  | none => exact (h.endingWriteOpt.closeWith hk).closes
  | some y =>
    dsimp only
    split
    · next hw =>
      have hd := h.endingWriteOpt (c := c) (r := point)
      exact ⟨hd.states, hd.active, .inr ⟨(Bool.and_eq_true_iff.mp hw).1, _, rfl, rfl, (endingWriteOpt_state c point d).trans (hs rfl)⟩⟩
    · exact (h.endingWriteOpt.endingWrite.closeWith hk).closes

theorem goOnEnding (h : Ruled false x d) : Ruled false (leftStanding c x) (goOnEnding c d) := by
  unfold Machine.goOnEnding
  cases hx : d.ending with
  | none =>
    rw [← h.ending, hx]
    exact ⟨h.states, h.active, hx⟩
  | some e =>
    rw [← h.ending, hx]
    dsimp only [leftStanding]
    split
    · have hnone : Ruled false none { d with ending := none } := ⟨h.states, h.active, rfl⟩
      exact hnone.endingWrite.closeWith (.inr rfl)
    · exact ⟨h.states, h.active, hx⟩

theorem foldUnderWay (h : Ruled p x d) : Ruled p x (foldUnderWay c d) := by
  unfold Machine.foldUnderWay
  dsimp only
  split
  · split
    · exact h.modCtl
    · exact h
  · exact h

theorem foldUnderWay_state (c : Chan) (d : Device) : ((Machine.foldUnderWay c d).ctl c).state = (d.ctl c).state := by
  unfold Machine.foldUnderWay
  dsimp only
  split
  · split
    · rw [modCtl_ctl_self]
    · rfl
  · rfl

/-- A sweep has begun only in SWEEP. -/
theorem sweepBegun_state (h : Ruled p x d) (hb : sweepBegun (d.ctl c) = true) : (d.ctl c).state = .sweep := by
  have horigin : (d.ctl c).origin = .sweep := of_decide_eq_true (Bool.and_eq_true_iff.mp hb).1
  by_cases hw : working (d.ctl c)
  · rcases hw with hs | hs
    · exact hs
    · exact absurd (horigin.symm.trans (frame_track (h.chan c) hs).1) (by decide)
  · exact absurd (horigin.symm.trans (noWork_of_not_working (h.chan c).1 hw).2.1) (by decide)

theorem soloEnd (h : Ruled p x d) {w : Bool} {pt : Option Record} {o : SweepOutcome} {cause : HaltCause} {at_ : BitVec 16} {k : Closing}
    (hk : k = .abort ∨ p = false) : Closes w p x c (soloEnd w pt o cause at_ k c d) :=
  h.foldUnderWay.endWith hk fun hsome => by
    rw [foldUnderWay_state]
    by_cases hb : sweepBegun (d.ctl c) = true
    · exact h.sweepBegun_state hb
    · rw [if_neg hb] at hsome; cases hsome

theorem haltChannel (h : Ruled false x d) {w : Bool} {pt : Option Record} {cause : HaltCause} {at_ : BitVec 16} :
    Closes w false x c (haltChannel w pt cause at_ c d) := h.soloEnd (.inr rfl)

theorem abortSweep (h : Ruled p x d) : Ruled p x (abortSweep c d) := (h.soloEnd (.inl rfl)).ruled

/-! ### The point cycle (R49 to R52) -/

theorem applyCurrent (h : Ruled false x d) {q : Copy} (hw : working (d.ctl c)) : Ruled false x (applyCurrent c q d) := by
  rcases hw with hs | hs
  · have htask := task_sweep (h.chan c) hs
    exact h.sweepWork hs htask fun _ => rfl
  · have htask := task_track (h.chan c) hs
    exact h.trackWork hs htask fun ⟨horigin, _, hrest⟩ => ⟨horigin, rfl, hrest⟩

theorem applyCurrent_state (c : Chan) (q : Copy) (d : Device) : ((Machine.applyCurrent c q d).ctl c).state = (d.ctl c).state := by
  unfold Machine.applyCurrent
  rw [modChan_ctl_self]; rfl

theorem setFront (h : Ruled false x d) {y : Settings} (hw : working (d.ctl c)) : Ruled false x (setFront c y d) :=
  h.work hw fun hframe htask => ⟨hframe, htask⟩

/-- A task that both states have. -/
theorem sharedTask (h : Ruled false x d) (hw : working (d.ctl c)) {f : Channel → Channel}
    (ht : sweepTask (f (d.chan c)).ctl.task = true) (ht' : trackTask (f (d.chan c)).ctl.task = true)
    (he : endsSelected (f (d.chan c)).ctl.task = false)
    (hf : workFrame (d.ctl c) → workFrame (f (d.chan c)).ctl := by exact id)
    (hs : (f (d.chan c)).ctl.state = (d.ctl c).state := by rfl) (hmode : (f (d.chan c)).chk.mode = (d.chan c).chk.mode := by rfl)
    (hchk : (f (d.chan c)).chk.state = (d.chan c).chk.state := by rfl) : Ruled false x (Machine.modChan c f d) :=
  h.work hw (hs := hs) (hmode := hmode) (hchk := hchk) fun hframe _ =>
    ⟨hf hframe, taskRule_shared (by unfold working; rw [hs]; exact hw) ht ht' he⟩

theorem enterDwell (h : Ruled false x d) (hw : working (d.ctl c)) {q : Copy} : Ruled false x (enterDwell c q d) :=
  h.sharedTask hw rfl rfl rfl

theorem enterLockwait (h : Ruled false x d) (hw : working (d.ctl c)) {q : Copy} : Ruled false x (enterLockwait c q d) := by
  unfold Machine.enterLockwait
  dsimp only
  have hd : Ruled false x (Machine.modCtl c (fun k => { k with inbox := keepSignals k.inbox, timer := none }) d) := h.modCtl
  have hw' : working ((Machine.modCtl c (fun k => { k with inbox := keepSignals k.inbox, timer := none }) d).ctl c) := by
    rw [modCtl_ctl_self]; exact hw
  split
  · exact hd.enterDwell hw'
  · exact hd.sharedTask hw' rfl rfl rfl

theorem beginSettle (h : Ruled false x d) (hw : working (d.ctl c)) {q : Copy} : Ruled false x (beginSettle c q d) := by
  unfold Machine.beginSettle
  dsimp only
  generalize (forceOf (d.ctl c)).settleTime.toNat = n
  have hd : Ruled false x (Machine.modCtl c (fun k => { k with task := .settle q, timer := some { kind := .settle, left := n } }) d) :=
    h.sharedTask hw rfl rfl rfl
  split
  · exact hd.enterLockwait (by rw [modCtl_ctl_self]; exact hw)
  · exact hd

/-! ### The end and the walk of a solo sweep (R15, R49, R59) -/

theorem setSweepTask (h : Ruled false x d) (hs : (d.ctl c).state = .sweep) {t : Task} (ht : sweepTask t = true)
    (he : endsSelected t = false) : Ruled false x (setTask c t d) :=
  h.sweepWork (f := fun k => { k with ctl := { k.ctl with task := t } }) hs ht fun h' => by rw [he] at h'; cases h'

theorem sweepEnding (h : Ruled false x d) (hs : (d.ctl c).state = .sweep) : Ruled false x (sweepEnding c d) := by
  unfold Machine.sweepEnding
  dsimp only
  split
  · exact h.sweepWork hs rfl (by intro h'; cases h')
  · exact h.setSweepTask hs rfl rfl

theorem startWalk (h : Ruled false x d) (hs : (d.ctl c).state = .sweep) {start : Nat} : Ruled false x (startWalk c start d) := by
  unfold Machine.startWalk
  split
  · exact h
  · split
    · exact h.sweepEnding hs
    · exact h.setSweepTask hs rfl rfl

/-! ### Tracks (R94 to R107) -/

theorem setTrackTask (h : Ruled false x d) (hs : (d.ctl c).state = .track) {t : Task} (ht : trackTask t = true) :
    Ruled false x (setTask c t d) := h.trackWork (f := fun k => { k with ctl := { k.ctl with task := t } }) hs ht

theorem enterWait (h : Ruled false x d) (hs : (d.ctl c).state = .track) : Ruled false x (enterWait c d) := by
  unfold Machine.enterWait
  exact h.trackWork hs rfl

/-- A channel with a current entry, a window and a configuration in force enters TRACK. -/
theorem enterTrack (h : Ruled false x d) (hcurrent : (d.ctl c).current.isSome = true) (hwindow : (d.ctl c).window.isSome = true)
    {f : Controller → Controller} (hf : ∀ k : Controller, (f k).current = k.current ∧ (f k).window = k.window)
    (hforce : (f (d.ctl c)).force.isSome = true) : Ruled false x (enterTrack c (Machine.modCtl c f d)) := by
  obtain ⟨hc, hw⟩ := hf (d.ctl c)
  unfold Machine.enterTrack Machine.enterWait Machine.modCtl
  rw [modChan_modChan, modChan_modChan]
  refine h.modChan fun hk => ⟨⟨rfl, rfl, ?_, ?_, hforce, ?_, rfl, rfl⟩, fun ho => hk.2 (.inr (ho.resolve_left (by simp)))⟩
  · exact (congrArg Option.isSome hc).trans hcurrent
  · exact (congrArg Option.isSome hw).trans hwindow
  · exact (congrArg Option.isSome hc).trans hcurrent

theorem fixList (h : Ruled false x d) (hs : (d.ctl c).state = .track) {l : List Idx} : Ruled false x (fixList c l d) := by
  unfold Machine.fixList
  exact h.trackWork hs rfl

theorem takeDecision (h : Ruled false x d) (hs : (d.ctl c).state = .track) : Ruled false x (takeDecision c d) := by
  unfold Machine.takeDecision
  dsimp only
  split
  · exact h.trackWork hs rfl
  · exact h.trackWork hs rfl
  · have hd : ∀ i : Idx, Ruled false x (Machine.modCtl c (fun k => { k with task := .reapply i, failCount := k.failCount + 1 }) d) :=
      fun i => h.trackWork hs rfl
    split
    · exact (hd _).raise.haltChannel.ruled
    · exact hd _

theorem afterCandidate (h : Ruled false x d) (hs : (d.ctl c).state = .track) : Ruled false x (afterCandidate c d) := by
  unfold Machine.afterCandidate
  dsimp only
  split
  · exact h.setTrackTask hs rfl
  · split
    · exact h.trackWork hs rfl
    · exact h.takeDecision hs

theorem afterReapply (h : Ruled false x d) (hs : (d.ctl c).state = .track) : Ruled false x (afterReapply c d) := by
  unfold Machine.afterReapply
  dsimp only
  split
  · obtain ⟨_, hcurrent, hwindow, _⟩ := frame_track (h.chan c) hs
    exact h.enterApplied hcurrent hwindow
  · split
    · exact h.enterWait hs
    · exact h.trackWork hs rfl

/-! ### What follows a record -/

theorem afterSingle (h : Ruled false x d) (hs : (d.ctl c).state = .sweep) : Ruled false x (afterSingle c d) := by
  unfold Machine.afterSingle
  split
  · exact h.toRest (.inl rfl)
  · split
    · exact h.toRest (.inl rfl)
    · exact h.sweepWork hs rfl (by intro h'; cases h')

theorem afterSweepPoint (h : Ruled false x d) (hs : (d.ctl c).state = .sweep) : Ruled false x (afterSweepPoint c d) := by
  unfold Machine.afterSweepPoint
  dsimp only
  split
  · exact h.sweepEnding hs
  · split
    · exact h
    · exact h.startWalk hs

theorem modCtl_id (c : Chan) (d : Device) : Machine.modCtl c (fun k => k) d = d := by
  change ({ d with chans := d.chans.set c (d.chans.get c) } : Device) = d
  rw [Eight.set_get]

theorem afterSelected (h : Ruled false x d) (hs : (d.ctl c).state = .sweep) (hcurrent : (d.ctl c).current.isSome = true) {solo : Bool} :
    Ruled false x (afterSelected solo c d) := by
  obtain ⟨_, hwindow, hforce, _⟩ := frame_sweep (h.chan c) hs
  unfold Machine.afterSelected
  dsimp only
  refine Ruled.raise ?_
  split
  · have htrack := h.enterTrack (f := fun k => k) hcurrent hwindow (fun _ => ⟨rfl, rfl⟩) hforce
    rw [modCtl_id] at htrack
    exact htrack
  · exact h.enterApplied hcurrent hwindow

theorem proceed (h : Ruled false x d) {a : After} (ha : followRule (d.ctl c) a) : Ruled false x (proceed c a d) := by
  unfold Machine.proceed
  rcases ha with ⟨hs, hsweep, hcurrent⟩ | ⟨hs, htrack⟩
  · cases a with
    | sweepPoint => exact h.afterSweepPoint hs
    | memberPoint r => exact h.sweepWork hs rfl (by intro h'; cases h')
    | selected solo => exact h.afterSelected hs (hcurrent solo rfl)
    | noneUsable => exact (h.toRest (.inl rfl)).raise
    | single => exact h.afterSingle hs
    | candidate => cases hsweep
    | move => cases hsweep
  · cases a with
    | candidate => exact h.afterCandidate hs
    | move => exact h.afterReapply hs
    | _ => cases htrack

/-- The origin of work tells its state. -/
theorem originSweep (h : Ruled p x d) (hw : working (d.ctl c)) (ho : (d.ctl c).origin ≠ .track) : (d.ctl c).state = .sweep :=
  hw.resolve_right fun hs => ho (frame_track (h.chan c) hs).1

theorem originTrack (h : Ruled p x d) (hw : working (d.ctl c)) (ho : (d.ctl c).origin = .track) : (d.ctl c).state = .track :=
  hw.resolve_left fun hs => by
    rcases (frame_sweep (h.chan c) hs).1 with h' | h' <;> exact absurd (ho.symm.trans h') (by decide)

theorem noPreload (h : Ruled p x d) (hw : working (d.ctl c)) : p = false :=
  h.active.symm.trans (h.awake (working_not_restful hw)).active

theorem endPoint (h : Ruled p x d) {o : PointOutcome} : Ruled p x (endPoint c o d) := by
  unfold Machine.endPoint
  dsimp only
  cases hu : (d.ctl c).task.underWay with
  | none => exact h
  | some q =>
    have hne : (d.ctl c).task ≠ .idle := fun hi => by rw [hi] at hu; cases hu
    have hw := h.works hne
    obtain rfl := h.noPreload hw
    dsimp only
    have hd : Ruled false x (Machine.modChan c (fun k => { k with chk := chkClose k.chk }) d) :=
      h.work hw fun hframe htask => ⟨hframe, htask⟩
    have hctl : (Machine.modChan c (fun k => { k with chk := chkClose k.chk }) d).ctl c = d.ctl c := by rw [modChan_ctl_self]; rfl
    rw [← hctl] at hw
    cases ho : (d.ctl c).origin with
    | none => exact hd
    | single => exact hd.sweepWork (hd.originSweep hw (by rw [hctl, ho]; decide)) rfl (by intro h'; cases h')
    | sweep =>
      have hs := hd.originSweep hw (by rw [hctl, ho]; decide)
      dsimp only
      split
      · exact hd.sweepWork hs rfl (by intro h'; cases h')
      · exact hd.sweepWork hs rfl (by intro h'; cases h')
    | track =>
      have hs := hd.originTrack hw (by rw [hctl, ho])
      dsimp only
      have hrecord : ∀ (r : Record) (f : Controller → Cycle), Ruled false x
          (Machine.modCtl c (fun k => { k with timer := none, task := .record r .candidate, cycle := f k })
            (Machine.modChan c (fun k => { k with chk := chkClose k.chk }) d)) := fun r f => hd.trackWork hs rfl
      split
      · exact hrecord _ _
      · exact (hrecord _ _).afterCandidate (by rw [modCtl_ctl_self]; exact hs)

end Ruled

end Sys2Proof.Machine
end

section
/-! What the grants, the timers and the commands of one channel keep of the rules of its state (R9, R43, R44, R46, R96). -/

namespace Sys2Proof.Machine

-- One theorem after another: a thread for each would take the memory a check allows.
set_option Elab.async false

open Sys2Proof

/-- The SELECTED summary waits only where its entry is applied. -/
theorem task_selected {k : Channel} (h : chanRule k) (hs : k.ctl.state = .sweep) (he : endsSelected k.ctl.task = true) :
    k.ctl.current.isSome = true := by
  have htask := ((chanRule_working (.inl hs)).mp h).1.2
  unfold taskRule at htask
  rw [hs] at htask
  exact htask.2 he

/-- What may follow a record that waits. -/
theorem followRule_of_task {k : Channel} (h : chanRule k) {r : Record} {a : After}
    (ht : k.ctl.task = .record r a ∨ k.ctl.task = .stall r a) : followRule k.ctl a := by
  have hne : k.ctl.task ≠ .idle := by rcases ht with ht | ht <;> rw [ht] <;> simp
  rcases task_working h hne with ⟨hs, hsweep⟩ | ⟨hs, htrack⟩
  · refine .inl ⟨hs, ?_, fun solo ha => task_selected h hs ?_⟩
    · rcases ht with ht | ht <;> rw [ht] at hsweep <;> exact hsweep
    · subst ha; rcases ht with ht | ht <;> rw [ht] <;> rfl
  · refine .inr ⟨hs, ?_⟩
    rcases ht with ht | ht <;> rw [ht] at htrack <;> exact (Bool.not_eq_true' _).mp htrack

theorem followRule_congr {k k' : Controller} {a : After} (h : followRule k a) (hs : k'.state = k.state) (hc : k'.current = k.current) :
    followRule k' a := by
  unfold followRule
  rw [hs, hc]
  exact h

/-- A controller whose message is taken, or who leaves the group's sweep with it. -/
theorem sweepFrame.unhanded {k : Controller} (h : sweepFrame k) : sweepFrame { k with message := none } := by
  obtain ⟨horigin, hwindow, hforce, hanchor, _, hprior⟩ := h
  exact ⟨horigin, hwindow, hforce, hanchor, fun hn => absurd hn Bool.false_ne_true, hprior⟩

theorem sweepFrame.leavesGroup {k : Controller} (h : sweepFrame k) : sweepFrame { k with group := none, message := none } := by
  obtain ⟨horigin, hwindow, hforce, hanchor, _, hprior⟩ := h
  exact ⟨horigin, hwindow, hforce, hanchor, fun hn => absurd hn Bool.false_ne_true, hprior⟩

namespace Ruled

variable {p : Bool} {x : Option Ending} {d e : Device} {c : Chan}

/-! ### What a member takes (R121, R126, R127, R129, R130) -/

theorem memberAborts (h : Ruled p x d) {w begun : Bool} {pt : Option Record} {f : Figures}
    (hs : begun = true → (d.ctl c).state = .sweep) : Closes w p x c (memberAborts w pt f begun c d) :=
  h.endWith (.inl rfl) fun hsome => hs (by cases begun <;> simp_all)

theorem memberHalts (h : Ruled false x d) {w begun reports : Bool} {pt : Option Record} {cause : HaltCause} {f : Figures}
    (hs : begun = true → (d.ctl c).state = .sweep) : Closes w false x c (memberHalts w pt cause f begun reports c d) :=
  h.endWith (.inr rfl) fun hsome => hs (by cases begun <;> simp_all)

theorem ejectedChannel (h : Ruled p x d) {under : Option PointOutcome} {st : ChanState} (hst : st = .idle ∨ st = .halted ∧ p = false) :
    Ruled p x (ejectedChannel under st c d) := h.endingWriteOpt.toRest hst

/-- A channel that has been handed a message is in SWEEP. -/
theorem messageSweeps (h : Ruled p x d) {m : GroupMessage} (hm : (d.ctl c).message = some m) : (d.ctl c).state = .sweep :=
  member_sweeps (h.chan c) (message_member (h.chan c) fun hn => by cases hm.symm.trans hn)

theorem takeCopy (h : Ruled p x d) {q : Copy} (hm : (d.ctl c).message = some (.copy q)) : Ruled p x (takeCopy c q d) := by
  have hs := h.messageSweeps hm
  obtain rfl := h.noPreload (.inl hs)
  have htask := task_sweep (h.chan c) hs
  have hselected := task_selected (h.chan c) hs
  have hd : Ruled false x (Machine.modCtl c (fun k => { k with message := none }) d) :=
    h.sweepWork (f := fun k => { k with ctl := { k.ctl with message := none } }) hs htask hselected
      sweepFrame.unhanded
  have hw : working ((Machine.modCtl c (fun k => { k with message := none }) d).ctl c) := by rw [modCtl_ctl_self]; exact .inl hs
  exact (hd.applyCurrent hw).beginSettle (by unfold working; rw [applyCurrent_state]; exact hw)

theorem takeAbort (h : Ruled p x d) {w : Bool} {f : Figures} (hm : (d.ctl c).message = some (.abort f)) :
    Closes w p x c (takeAbort w c f d) := h.memberAborts fun _ => h.messageSweeps hm

theorem takeHalt (h : Ruled p x d) {w : Bool} {i : Option Idx} {f : Figures} (hm : (d.ctl c).message = some (.halt i f)) :
    Closes w p x c (takeHalt w c i f d) := by
  have hs := h.messageSweeps hm
  obtain rfl := h.noPreload (.inl hs)
  exact h.memberHalts fun _ => hs

theorem takeEnding (h : Ruled p x d) {q : Option Copy} {f : Figures} (hm : (d.ctl c).message = some (.ending q f)) :
    Ruled p x (takeEnding c q f d) := by
  have hs := h.messageSweeps hm
  obtain rfl := h.noPreload (.inl hs)
  cases q with
  | some q =>
    have hd := h.applyCurrent (q := q) (.inl hs)
    have hs' := (applyCurrent_state c q d).trans hs
    refine hd.sweepWork (c := c) (f := fun k => { k with ctl := { k.ctl with
      group := none, message := none, report := none, timer := none,
      task := .record (memberSummary d c f .selected q.index .none) (.selected false) } }) hs' rfl (fun _ => ?_)
      sweepFrame.leavesGroup
    change ((Machine.applyCurrent c q d).chan c).ctl.current.isSome = true
    unfold Machine.applyCurrent
    rw [modChan_chan_self]
    rfl
  | none =>
    unfold Machine.takeEnding
    exact h.sweepWork hs rfl (by intro h'; cases h') sweepFrame.leavesGroup

theorem flushGroup (h : Ruled p x d) : Ruled p x (flushGroup c d) := by
  unfold Machine.flushGroup
  cases hm : (d.ctl c).message with
  | none => exact h
  | some m =>
    cases m with
    | copy q => exact h
    | abort f => exact (h.takeAbort hm).ruled
    | ending q f => exact h.takeEnding hm
    | halt i f => exact (h.takeHalt hm).ruled

/-! ### Timers (R50, R51, R97, R102) -/

theorem dropTimer (h : Ruled p x d) : Ruled p x (dropTimer c d) := h.modCtl

theorem dropTimer_state (c : Chan) (d : Device) : ((Machine.dropTimer c d).ctl c).state = (d.ctl c).state := by
  unfold Machine.dropTimer
  rw [modCtl_ctl_self]

theorem takeSettle (h : Ruled p x d) : Ruled p x (takeSettle c d) := by
  unfold Machine.takeSettle
  split
  · split
    · next q ht =>
      have hw := h.works (c := c) (by rw [ht]; simp)
      obtain rfl := h.noPreload hw
      exact h.dropTimer.enterLockwait (by unfold working; rw [dropTimer_state]; exact hw)
    · next ht =>
      have hs := h.tracks (c := c) (by rw [ht]; simp) (by rw [ht]; rfl)
      obtain rfl := h.noPreload (.inr hs)
      exact h.enterWait hs
    · exact h.dropTimer
  · exact h

theorem takeLockTimeout (h : Ruled p x d) : Ruled p x (takeLockTimeout c d) := by
  unfold Machine.takeLockTimeout
  split
  · split
    · exact h.dropTimer.endPoint
    · exact h.dropTimer
  · exact h

theorem takeInterval (h : Ruled p x d) : Ruled p x (takeInterval c d) := by
  unfold Machine.takeInterval
  dsimp only
  split
  · split
    · next ht =>
      have hs := h.tracks (c := c) (by rw [ht]; simp) (by rw [ht]; rfl)
      obtain rfl := h.noPreload (.inr hs)
      have hs' := (dropTimer_state c d).trans hs
      split
      · split
        · exact h.dropTimer.fixList hs'
        · exact h.dropTimer.setTrackTask hs' rfl
      · exact h.dropTimer
    · exact h.dropTimer
  · exact h

/-! ### Grants (R10, R15, R49, R60, R68, R79, R83, R98, R99, R102, R105) -/

theorem checkGrant (h : Ruled p x d) : Ruled p x (checkGrant c d) := by
  unfold Machine.checkGrant
  split
  · next ht _ =>
    have hs := h.sweeps (c := c) (by rw [ht]; simp) (by rw [ht]; rfl)
    obtain rfl := h.noPreload (.inl hs)
    refine h.showProgress.setSweepTask ?_ rfl rfl
    unfold Machine.showProgress
    split
    · rw [modCtl_ctl_self]; exact hs
    · rw [modCtl_ctl_self]; exact hs
  · exact h

theorem endStatus_same (st : LastStatus) (k : Controller) :
    (endStatus st k).state = k.state ∧ (endStatus st k).task = k.task ∧ (endStatus st k).current = k.current := by
  unfold endStatus
  split <;> exact ⟨rfl, rfl, rfl⟩

theorem beginSweep (h : Ruled false x d) (hs : (d.ctl c).state = .sweep) (hcheck : endsSelected (d.ctl c).task = false) :
    Ruled false x (beginSweep c d) := by
  have htask := task_sweep (h.chan c) hs
  have hd : Ruled false x (Machine.modCtl c (fun k =>
      { endStatus .accepted k with seq := k.seq + 1, prior := none, selection := Selection.cleared, stopping := false }) d) := by
    refine h.sweepWork (f := fun k => { k with ctl := { endStatus .accepted k.ctl with
      seq := k.ctl.seq + 1, prior := none, selection := Selection.cleared, stopping := false } }) hs ?_ ?_ ?_
      (endStatus_same _ _).1
    · exact (congrArg sweepTask (endStatus_same _ _).2.1).trans htask
    · intro h'
      exact absurd (h'.symm.trans ((congrArg endsSelected (endStatus_same _ _).2.1).trans hcheck)) (by decide)
    · rintro ⟨horigin, hwindow, hforce, hanchor, hmember, _⟩
      unfold endStatus
      split <;> exact ⟨horigin, hwindow, hforce, hanchor, hmember, fun q hq => by cases hq⟩
  unfold Machine.beginSweep
  dsimp only
  split
  · refine hd.startWalk ?_
    rw [modCtl_ctl_self]
    exact (endStatus_same _ _).1.trans hs
  · exact hd

theorem failCheck (h : Ruled false x d) (hs : (d.ctl c).state = .sweep) : Ruled false x (failCheck c d) := by
  have hprior : ∀ q, (d.ctl c).prior = some q → q.applied.isSome = true → q.window.isSome = true := (frame_sweep (h.chan c) hs).2.2.2.2.2
  have hanchor : (d.ctl c).anchor = none := (frame_sweep (h.chan c) hs).2.2.2.1
  have hstatus : Ruled false x (Machine.modCtl c (endStatus .planInvalid) d) := by
    refine h.modCtl (fun hk => ?_) (endStatus_same _ _).1
    unfold endStatus
    split <;> exact hk
  unfold Machine.failCheck
  dsimp only
  refine Ruled.raise ?_
  split
  · next q hq =>
    split
    · next i hi =>
      refine hstatus.modChan fun hk => ⟨⟨⟨rfl, rfl, rfl, rfl, ?_, rfl, rfl⟩, rfl, hprior q hq (by rw [hi]; rfl)⟩,
        fun ho => hk.2 (.inr (ho.resolve_left (by simp)))⟩
      rw [modCtl_chan_self]
      change (endStatus .planInvalid (d.ctl c)).anchor = none
      unfold endStatus
      split <;> exact hanchor
    · exact hstatus.toRest (.inl rfl)
  · exact hstatus.toRest (.inl rfl)

theorem takeCheckEnd (h : Ruled p x d) : Ruled p x (takeCheckEnd c d) := by
  unfold Machine.takeCheckEnd
  split
  · next r i ht =>
    have hs := h.sweeps (c := c) (by rw [ht]; simp) (by rw [ht]; rfl)
    obtain rfl := h.noPreload (.inl hs)
    have hctl : (Machine.showResult c r i d).ctl c = { d.ctl c with planCheck := { result := r, index := i, fetch := false } } :=
      modCtl_ctl_self c _ d
    dsimp only
    split
    · exact h.showResult.beginSweep (by rw [hctl]; exact hs) (by rw [hctl]; exact congrArg endsSelected ht)
    · exact h.showResult.failCheck (by rw [hctl]; exact hs)
  · exact h

theorem walkGrant (h : Ruled p x d) {w : Bool} : Closes w p x c (walkGrant w c d) := by
  unfold Machine.walkGrant
  split
  · next next ht =>
    have hs := h.sweeps (c := c) (by rw [ht]; simp) (by rw [ht]; rfl)
    obtain rfl := h.noPreload (.inl hs)
    split
    · exact (h.startWalk hs).closes
    · next q _ =>
      exact ((h.applyCurrent (q := q) (.inl hs)).beginSettle (by unfold working; rw [applyCurrent_state]; exact .inl hs)).closes
    · exact h.showFetchFailure.haltChannel
  · exact h.closes

/-- An applied copy is the current entry. -/
theorem applyCurrent_current (c : Chan) (q : Copy) (d : Device) : ((Machine.applyCurrent c q d).ctl c).current = some q.index := by
  unfold Machine.applyCurrent
  rw [modChan_ctl_self]

theorem selectedGrant (h : Ruled p x d) : Ruled p x (selectedGrant c d) := by
  unfold Machine.selectedGrant
  split
  · next i at_ ht =>
    have hs := h.sweeps (c := c) (by rw [ht]; simp) (by rw [ht]; rfl)
    obtain rfl := h.noPreload (.inl hs)
    split
    · next q _ =>
      have hcurrent : ((Machine.applyCurrent c q d).chan c).ctl.current.isSome = true :=
        congrArg Option.isSome (applyCurrent_current c q d)
      exact (h.applyCurrent (.inl hs)).sweepWork (c := c) (f := fun k => { k with ctl := { k.ctl with
        task := .record (.summary (soloSummary d c .selected i .none at_)) (.selected true) } }) ((applyCurrent_state c q d).trans hs) rfl
        fun _ => hcurrent
    · exact h.showFetchFailure.haltChannel.ruled
  · exact h

theorem applyCurrent_window (c : Chan) (q : Copy) (d : Device) : ((Machine.applyCurrent c q d).ctl c).window = (d.ctl c).window := by
  unfold Machine.applyCurrent
  rw [modChan_ctl_self]
  rfl

theorem singleGrant (h : Ruled p x d) : Ruled p x (singleGrant c d) := by
  unfold Machine.singleGrant
  split
  · next i ht =>
    have hs := h.sweeps (c := c) (by rw [ht]; simp) (by rw [ht]; rfl)
    obtain rfl := h.noPreload (.inl hs)
    split
    · next q _ =>
      refine (h.applyCurrent (.inl hs)).enterApplied (by rw [applyCurrent_current]; rfl) ?_
      rw [applyCurrent_window]
      exact (frame_sweep (h.chan c) hs).2.1
    · exact h.showFetchFailure.haltChannel.ruled
  · exact h

/-! ### Fills (R79, R81 to R85) -/

theorem writeRecord_same (c : Chan) (r : Record) (d : Device) :
    ((Machine.writeRecord c r d).ctl c).state = (d.ctl c).state ∧ ((Machine.writeRecord c r d).ctl c).current = (d.ctl c).current := by
  rw [writeRecord_form]
  change ((Machine.modChan c (filled (fillControl d c)) d).ctl c).state = _ ∧ ((Machine.modChan c (filled (fillControl d c)) d).ctl c).current = _
  rw [modChan_ctl_self]
  exact ⟨rfl, rfl⟩

theorem written (h : Ruled false x d) {r : Record} {a : After} (ha : followRule (d.ctl c) a) :
    Ruled false x (Machine.proceed c a (Machine.writeRecord c r d)) :=
  h.writeRecord.proceed (followRule_congr ha (writeRecord_same c r d).1 (writeRecord_same c r d).2)

theorem discarded (h : Ruled false x d) {a : After} (ha : followRule (d.ctl c) a) :
    Ruled false x (Machine.proceed c a (Machine.discardRecord c d)) := by
  refine h.discardRecord.proceed (followRule_congr ha ?_ ?_) <;>
  · unfold Machine.discardRecord
    rw [raise_ctl, modCtl_ctl_self]

theorem stalled (h : Ruled false x d) {r : Record} {a : After} (ha : followRule (d.ctl c) a) :
    Ruled false x (setTask c (.stall r a) d) := by
  rcases ha with ⟨hs, hsweep, hcurrent⟩ | ⟨hs, htrack⟩
  · refine h.sweepWork (f := fun k => { k with ctl := { k.ctl with task := .stall r a } }) hs hsweep fun he => ?_
    cases a with
    | selected solo => exact hcurrent solo rfl
    | _ => cases he
  · exact h.setTrackTask hs ((Bool.not_eq_true' _).mpr htrack)

theorem working_of_follow {k : Controller} {a : After} (h : followRule k a) : working k := h.imp And.left And.left

theorem fillGrant (h : Ruled p x d) : Ruled p x (fillGrant c d) := by
  unfold Machine.fillGrant
  split
  · next r a ht =>
    have ha := followRule_of_task (h.chan c) (.inl ht)
    obtain rfl := h.noPreload (working_of_follow ha)
    unfold fillRecord
    split
    · exact h.written ha
    · split
      · exact (h.stalled ha).raise
      · exact h.discarded ha
  · exact h

theorem channelGrant (h : Ruled p x d) {f : Device → Device} (hf : Ruled p x (f (Machine.served (reqChan c) d))) :
    Ruled p x (channelGrant c f d) := by
  unfold Machine.channelGrant
  split
  · exact hf
  · exact h

theorem handbackTaken (h : Ruled p x d) : Ruled p x (handbackTaken c d) := h.modCtl

theorem takeHandback (h : Ruled p x d) : Ruled p x (takeHandback c d) := by
  unfold Machine.takeHandback
  split
  · exact h
  · split
    · next r a ht =>
      have ha := followRule_of_task (h.chan c) (.inr ht)
      obtain rfl := h.noPreload (working_of_follow ha)
      refine h.channelGrant ?_
      unfold fillStalled
      split
      · refine h.served.handbackTaken.written ?_
        unfold Machine.handbackTaken
        rw [modCtl_ctl_self]
        exact ha
      · exact h.served.handbackTaken
    · exact h.handbackTaken

/-! ### Fetches of a track (R98, R99, R102, R105) -/

theorem listGrant (h : Ruled p x d) : Ruled p x (listGrant c d) := by
  unfold Machine.listGrant
  split
  · next ht =>
    have hs := h.tracks (c := c) (by rw [ht]; simp) (by rw [ht]; rfl)
    obtain rfl := h.noPreload (.inr hs)
    dsimp only
    split
    · exact h.fixList hs
    · exact h.setTrackTask hs rfl
  · exact h

theorem setFront_state (c : Chan) (y : Settings) (d : Device) : ((Machine.setFront c y d).ctl c) = d.ctl c := by
  unfold Machine.setFront
  rw [modChan_ctl_self]
  rfl

theorem candidateGrant (h : Ruled p x d) : Ruled p x (candidateGrant c d) := by
  unfold Machine.candidateGrant
  dsimp only
  split
  · next ht =>
    have hs := h.tracks (c := c) (by rw [ht]; simp) (by rw [ht]; rfl)
    obtain rfl := h.noPreload (.inr hs)
    split
    · exact (h.setFront (.inr hs)).beginSettle (by rw [setFront_state]; exact .inr hs)
    · exact h.showFetchFailure.haltChannel.ruled
  · exact h

theorem reapplyGrant (h : Ruled p x d) : Ruled p x (reapplyGrant c d) := by
  unfold Machine.reapplyGrant
  split
  · next i ht =>
    have hs := h.tracks (c := c) (by rw [ht]; simp) (by rw [ht]; rfl)
    obtain rfl := h.noPreload (.inr hs)
    split
    · exact h.showFetchFailure.haltChannel.ruled
    · split
      · exact (h.setFront (.inr hs)).afterReapply (by rw [setFront_state]; exact hs)
      · exact ((h.applyCurrent (.inr hs)).setTrackTask ((applyCurrent_state c _ d).trans hs) rfl).raise
  · exact h

theorem closeGrant (h : Ruled p x d) : Ruled p x (closeGrant c d) := by
  unfold Machine.closeGrant
  dsimp only
  split
  · next ht _ =>
    have hs := h.tracks (c := c) (by rw [ht]; simp) (by rw [ht]; rfl)
    obtain rfl := h.noPreload (.inr hs)
    obtain ⟨_, hcurrent, hwindow, _⟩ := frame_track (h.chan c) hs
    split
    · exact (h.setFront (.inr hs)).enterApplied (by rw [setFront_state]; exact hcurrent) (by rw [setFront_state]; exact hwindow)
    · exact h.showFetchFailure.haltChannel.ruled
  · exact h

end Ruled

end Sys2Proof.Machine
end

section
/-! What the commands of a solo channel and the operations of the Pace Controller keep of the rules of the channel states. -/

namespace Sys2Proof.Machine

-- One theorem after another: a thread for each would take the memory a check allows.
set_option Elab.async false

open Sys2Proof

namespace Ruled

variable {p : Bool} {x : Option Ending} {d e : Device} {c : Chan} {g : Grp}

/-! ### STOP and ABORT of a solo channel (R13, R63, R64, R68, R105, R106) -/

theorem abandonCheck (h : Ruled p x d) : Ruled p x (abandonCheck .idle c d) := h.showAbandoned.toRest (.inl rfl)

theorem abortSingle (h : Ruled false x d) (hs : (d.ctl c).state = .sweep) : Ruled false x (abortSingle c d) := by
  unfold Machine.abortSingle
  split
  · exact h
  · exact h.endingWriteOpt.afterSingle ((endingWriteOpt_state ..).trans hs)

theorem closeTrack (h : Ruled false x d) (hs : (d.ctl c).state = .track) : Ruled false x (closeTrack c d) := by
  unfold Machine.closeTrack
  exact h.trackWork hs rfl

/-- A track ends in APPLIED: its current entry is applied. -/
theorem trackEnds (h : Ruled false x d) (hs : (d.ctl c).state = .track) : Ruled false x (Machine.enterApplied c d) := by
  obtain ⟨_, hcurrent, hwindow, _⟩ := frame_track (h.chan c) hs
  exact h.enterApplied hcurrent hwindow

theorem abortTrack (h : Ruled false x d) (hs : (d.ctl c).state = .track) : Ruled false x (abortTrack c d) := by
  have hwritten : ∀ r : Record, Ruled false x (Machine.enterApplied c (Machine.endingWrite c r d)) := fun r =>
    h.endingWrite.trackEnds ((endingWriteOpt_state c (some r) d).trans hs)
  unfold Machine.abortTrack
  dsimp only
  split
  · exact h.trackEnds hs
  · exact h.trackEnds hs
  · exact h.trackEnds hs
  · split
    · exact h.trackEnds hs
    · exact h.closeTrack hs
  · exact hwritten _
  · exact hwritten _
  · exact h
  · exact h.endingWriteOpt.closeTrack ((endingWriteOpt_state ..).trans hs)

theorem abortSolo (h : Ruled false x d) (hs : (d.ctl c).state = .sweep) : Ruled false x (abortSolo c d) := by
  unfold Machine.abortSolo
  dsimp only
  split
  · exact h.abandonCheck
  · split
    · exact h.abortSingle hs
    · exact h.abortSweep

theorem stopTrack (h : Ruled false x d) (hs : (d.ctl c).state = .track) : Ruled false x (stopTrack c d) := by
  unfold Machine.stopTrack
  split
  · exact h.trackEnds hs
  · exact h.trackEnds hs
  · exact h.trackEnds hs
  · exact h
  · have htask := task_track (h.chan c) hs
    exact h.trackWork (f := fun k => { k with ctl := { k.ctl with stopping := true } }) hs htask

/-- A controller in SWEEP takes a STOP. -/
theorem stopTaken (h : Ruled false x d) (hs : (d.ctl c).state = .sweep) :
    Ruled false x (Machine.modCtl c (fun k => { k with stopping := true }) d) := by
  have htask := task_sweep (h.chan c) hs
  have hselected := task_selected (h.chan c) hs
  exact h.sweepWork (f := fun k => { k with ctl := { k.ctl with stopping := true } }) hs htask hselected

theorem stopSweep (h : Ruled false x d) (hs : (d.ctl c).state = .sweep) : Ruled false x (stopSweep c d) := by
  unfold Machine.stopSweep
  dsimp only
  split
  · exact h.abandonCheck
  · split
    · exact h
    · split
      · exact (h.stopTaken hs).sweepEnding (by rw [modCtl_ctl_self]; exact hs)
      · exact h.stopTaken hs

/-! ### Commands that start work (R47, R66, R67, R74, R94) -/

/-- IDLE or APPLIED: no work, and a window in force in APPLIED. -/
theorem free_rule {k : Channel} (h : chanRule k) (hs : k.ctl.state = .idle ∨ k.ctl.state = .applied) :
    noWork k.ctl ∧ (k.ctl.state = .applied → k.ctl.current.isSome = true ∧ k.ctl.window.isSome = true) := by
  refine ⟨noWork_of_rule h.1 (hs.elim (fun hi => .inr (.inl hi)) fun ha => .inr (.inr (.inr ha))), fun ha => ?_⟩
  have hrule := h.1
  unfold stateRule at hrule
  rw [ha] at hrule
  exact ⟨hrule.2.1, hrule.2.2⟩

/-- A channel free to start enters SWEEP with its prior state saved. -/
theorem startsSweep (h : Ruled false x d) (hs : (d.ctl c).state = .idle ∨ (d.ctl c).state = .applied) {f : Channel → Channel}
    (hstate : (f (d.chan c)).ctl.state = .sweep) (htask : sweepTask (f (d.chan c)).ctl.task = true)
    (hselected : endsSelected (f (d.chan c)).ctl.task = false)
    (hframe : noWork (d.ctl c) → ((d.ctl c).state = .applied → (d.ctl c).window.isSome = true) → sweepFrame (f (d.chan c)).ctl)
    (hchk : (f (d.chan c)).chk = (d.chan c).chk := by rfl) : Ruled false x (Machine.modChan c f d) :=
  h.modChan fun hk => by
    obtain ⟨hno, happlied⟩ := free_rule hk hs
    refine (chanRule_working (.inl hstate)).mpr ⟨⟨?_, taskRule_sweep hstate htask hselected⟩, fun hm => ?_⟩
    · unfold workFrame
      rw [hstate]
      exact hframe hno fun ha => (happlied ha).2
    · rw [hchk] at hm ⊢
      exact hk.2 (.inr hm)

theorem unhanded {m : Option GroupMessage} {g : Option Grp} (h : m = none) : m.isSome = true → g.isSome = true := by
  rw [h]
  exact fun hm => absurd hm Bool.false_ne_true

/-- What a start saves of the prior state: the applied entry has its window. -/
theorem savedPrior {k : Controller} (hw : k.state = .applied → k.window.isSome = true) :
    ∀ q, some ({ applied := if k.state = .applied then k.current else none, window := k.window } : Prior) = some q →
      q.applied.isSome = true → q.window.isSome = true := by
  intro q hq happlied
  cases hq
  by_cases ha : k.state = .applied
  · exact hw ha
  · dsimp only at happlied
    rw [if_neg ha] at happlied
    cases happlied

theorem beginCheck (h : Ruled false x d) (hs : (d.ctl c).state = .idle ∨ (d.ctl c).state = .applied) : Ruled false x (beginCheck c d) := by
  unfold Machine.beginCheck Machine.modCtl
  refine h.startsSweep hs rfl rfl rfl fun hno hw => ?_
  obtain ⟨_, _, _, _, hanchor, _, hmessage⟩ := hno
  exact ⟨.inl rfl, rfl, rfl, hanchor, unhanded hmessage, savedPrior hw⟩

/-- The settle overrides whatever task stood before. -/
theorem beginSettle_setTask (c : Chan) (q : Copy) (t : Task) (d : Device) :
    Machine.beginSettle c q (Machine.setTask c t d) = Machine.beginSettle c q d := by
  have hforce : forceOf ((Machine.setTask c t d).ctl c) = forceOf (d.ctl c) := by
    unfold Machine.setTask
    rw [modCtl_ctl_self]
    rfl
  have hover : ∀ n : Nat, Machine.modCtl c (fun k => { k with task := .settle q, timer := some { kind := .settle, left := n } })
      (Machine.setTask c t d) = Machine.modCtl c (fun k => { k with task := .settle q, timer := some { kind := .settle, left := n } }) d := by
    intro n
    unfold Machine.setTask Machine.modCtl
    rw [modChan_modChan]
  unfold Machine.beginSettle
  rw [hforce]
  dsimp only
  rw [hover]

theorem beginSingle (h : Ruled false x d) (hs : (d.ctl c).state = .idle ∨ (d.ctl c).state = .applied) {w : Window} {q : Copy} :
    Ruled false x (beginSingle c w q d) := by
  unfold Machine.beginSingle
  dsimp only
  rw [← beginSettle_setTask c q .memberWait]
  unfold Machine.setTask Machine.applyCurrent Machine.modCtl
  rw [modChan_modChan, modChan_modChan]
  have hstart := h.startsSweep (c := c) (f := fun k => { k with front := q.settings, ctl := { k.ctl with
      state := .sweep, origin := .single, stopping := false, force := some (configOf d c), window := some w,
      prior := some { applied := if k.ctl.state = .applied then k.ctl.current else none, window := k.ctl.window },
      current := some q.index, task := .memberWait } }) hs rfl rfl rfl fun hno hw => by
    obtain ⟨_, _, _, _, hanchor, _, hmessage⟩ := hno
    exact ⟨.inr rfl, rfl, rfl, hanchor, unhanded hmessage, savedPrior hw⟩
  exact hstart.beginSettle (by rw [modChan_ctl_self]; exact .inl rfl)

theorem beginApply (h : Ruled false x d) (hs : (d.ctl c).state = .idle ∨ (d.ctl c).state = .applied) {w : Window} {q : Copy} :
    Ruled false x (beginApply c w q d) := by
  unfold Machine.beginApply Machine.applyCurrent Machine.modCtl
  rw [modChan_modChan]
  exact h.modChan fun hk => ⟨⟨(free_rule hk hs).1, rfl, rfl⟩, fun ho => hk.2 (.inr (ho.resolve_left (by simp)))⟩

theorem accept_state (code : BitVec 8) (st : LastStatus) (c : Chan) (d : Device) :
    ((Machine.accept code st c d).ctl c).state = (d.ctl c).state := by
  unfold Machine.accept
  rw [modCtl_ctl_self]

theorem ofInactive (h : Ruled p x d) (hp : ¬ preloadActive d = true) : p = false := h.active ▸ Bool.eq_false_iff.mpr hp

theorem freeToStart_state (h : ¬ (!freeToStart d c) = true) : (d.ctl c).state = .idle ∨ (d.ctl c).state = .applied := by
  unfold freeToStart at h
  simp only [Bool.not_eq_true', Bool.not_eq_false, Bool.and_eq_true, Bool.or_eq_true, decide_eq_true_eq] at h
  exact h.1

theorem cmdStartTrack (h : Ruled p x d) : Ruled p x (cmdStartTrack c d) := by
  unfold Machine.cmdStartTrack
  split
  · exact h.refuse
  next hstate =>
    have ha : (d.ctl c).state = .applied := by
      simp only [Bool.not_eq_true', Bool.not_eq_false, Bool.and_eq_true, decide_eq_true_eq] at hstate
      exact hstate.1
    obtain rfl : p = false := h.active.symm.trans (h.awake (c := c) (by unfold restful; rw [ha]; simp)).active
    split
    · exact h.refuse
    · split
      · exact h.refuse
      · split
        · exact h.refuse
        · split
          · exact h.refuse
          · obtain ⟨hcurrent, hwindow⟩ := (free_rule (h.chan c) (.inr ha)).2 ha
            have hctl : (Machine.accept 0x04 .accepted c d).ctl c = { d.ctl c with lastCommand := 0x04, lastStatus := .accepted } :=
              modCtl_ctl_self c _ d
            exact h.accept.enterTrack (by rw [hctl]; exact hcurrent) (by rw [hctl]; exact hwindow) (fun _ => ⟨rfl, rfl⟩) rfl

theorem cmdSingle (h : Ruled p x d) : Ruled p x (cmdSingle c d) := by
  unfold Machine.cmdSingle
  split
  · exact h.refuse
  next hfree =>
    split
    · exact h.refuse
    next hp =>
      obtain rfl := h.ofInactive hp
      split
      · exact h.refuse
      · split
        · exact h.refuse
        · dsimp only
          split
          · exact h.refuse
          · split
            · exact h.takeTurn.showFetchFailure.refuse
            · exact h.takeTurn.accept.beginSingle (by rw [accept_state]; exact freeToStart_state hfree)

theorem cmdApply (h : Ruled p x d) : Ruled p x (cmdApply c d) := by
  unfold Machine.cmdApply
  split
  · exact h.refuse
  next hfree =>
    split
    · exact h.refuse
    next hp =>
      obtain rfl := h.ofInactive hp
      split
      · exact h.refuse
      · dsimp only
        split
        · exact h.refuse
        · split
          · exact h.takeTurn.showFetchFailure.refuse
          · exact h.takeTurn.accept.beginApply (by rw [accept_state]; exact freeToStart_state hfree)

theorem cmdClearHalt (h : Ruled p x d) : Ruled p x (cmdClearHalt c d) := by
  unfold Machine.cmdClearHalt
  split
  · next hs =>
    refine h.accept.oneChan (fun hk => ?_) fun _ _ => .inr rfl
    have hs' : ((Machine.accept 0x09 .accepted c d).chan c).ctl.state = .halted := (accept_state 0x09 .accepted c d).trans hs
    have hrule := hk.1
    unfold stateRule at hrule
    rw [hs'] at hrule
    exact ⟨⟨hrule.1, rfl, rfl, hrule.2.2.2⟩, fun ho => hk.2 (.inr (ho.resolve_left (by simp)))⟩
  · exact h.refuse

end Ruled

end Sys2Proof.Machine
end

section
/-! What the Pace Controller's operations keep of the rules of the channel states. -/

namespace Sys2Proof.Machine

-- One theorem after another: a thread for each would take the memory a check allows.
set_option Elab.async false

open Sys2Proof

namespace Ruled

variable {p : Bool} {x : Option Ending} {d e : Device} {c : Chan} {g : Grp}

/-! ### Members (R115, R119) -/

/-- A member that takes part is in SWEEP. -/
theorem partSweeps (h : Ruled p x d) (hg : (d.ctl c).group = some g) : (d.ctl c).state = .sweep :=
  member_sweeps (h.chan c) fun hn => by cases hg.symm.trans hn

theorem atMembers (h : Ruled p x d) {f : Controller → Controller}
    (hf : ∀ c e, Ruled false x e → (e.ctl c).group = some g → Ruled false x (Machine.modCtl c f e)) : Ruled p x (atMembers g f d) := by
  refine h.forMask fun c e he => ?_
  split
  · next hpart =>
    have hg : (e.ctl c).group = some g := of_decide_eq_true hpart
    obtain rfl := he.noPreload (.inl (he.partSweeps hg))
    exact hf c e he hg
  · exact he

theorem handAll (h : Ruled p x d) {m : GroupMessage} : Ruled p x (handAll g m d) :=
  h.atMembers fun c e he hg => by
    have hs := he.partSweeps hg
    have htask := task_sweep (he.chan c) hs
    have hselected := task_selected (he.chan c) hs
    refine he.sweepWork (f := fun k => { k with ctl := { k.ctl with message := some m } }) hs htask hselected ?_
    rintro ⟨horigin, hwindow, hforce, hanchor, _, hprior⟩
    exact ⟨horigin, hwindow, hforce, hanchor, fun _ => congrArg Option.isSome hg, hprior⟩

theorem atLead (h : Ruled p x d) {f : Chan → Device → Device} (hf : ∀ c, Ruled p x (f c d)) : Ruled p x (atLead g f d) := by
  unfold Machine.atLead
  split
  · exact hf _
  · exact h

/-! ### Closing a group's sweep (R120, R127, R129, R130) -/

theorem quietClose (h : Ruled p x d) : Ruled p x (quietClose g d) :=
  (h.forMask fun _ _ he => he.modCtl).modGroup.paceRefresh

theorem closeGroup (h : Ruled p x d) {o : SweepOutcome} : Ruled p x (closeGroup g o d) := h.quietClose.modGroup.devRaise

theorem groupAbort (h : Ruled p x d) : Ruled p x (groupAbort g d) := h.handAll.closeGroup

theorem groupHalt (h : Ruled p x d) {i : Option Idx} : Ruled p x (groupHalt g i d) := h.handAll.closeGroup

theorem abandonGroupCheck (h : Ruled p x d) : Ruled p x (abandonGroupCheck g d) := by
  refine Ruled.quietClose ((h.atLead fun _ => h.showAbandoned).forMask fun c e he => ?_)
  split
  · exact he.toRest (.inl rfl)
  · exact he

theorem finishHalting (h : Ruled p x d) : Ruled p x (finishHalting g d) := by
  unfold Machine.finishHalting
  split
  · exact h
  · split
    · exact h.closeGroup
    · exact (h.atLead fun _ => h.showAbandoned).quietClose

theorem setHalting (h : Ruled p x d) : Ruled p x (setHalting g d) := h.modGroup.paceRefresh

theorem enterHalting (h : Ruled p x d) : Ruled p x (enterHalting g d) := by
  unfold Machine.enterHalting
  split
  · exact h
  · exact h.setHalting.finishHalting

theorem groupEnding (h : Ruled p x d) : Ruled p x (groupEnding g d) := by
  unfold Machine.groupEnding
  dsimp only
  split
  · exact h.handAll.closeGroup
  · exact h.modGroup.paceRefresh

theorem groupWalkFrom (h : Ruled p x d) {start : Nat} : Ruled p x (groupWalkFrom g start d) := by
  unfold Machine.groupWalkFrom
  split
  · exact h
  · split
    · exact h.groupEnding
    · exact h.modGroup.paceRefresh

/-- Every member that takes part waits for the next copy. -/
theorem membersWait (h : Ruled p x d) : Ruled p x (Machine.atMembers g (fun k => { k with task := .memberWait }) d) :=
  h.atMembers fun _ _ he hg => he.setSweepTask (he.partSweeps hg) rfl rfl

theorem release (h : Ruled p x d) : Ruled p x (release g d) := by
  unfold Machine.release
  dsimp only
  split
  · exact h.modGroup.groupEnding
  · split
    · exact h.modGroup
    · exact h.modGroup.membersWait.groupWalkFrom

theorem afterEjection (h : Ruled p x d) : Ruled p x (afterEjection g d) := by
  unfold Machine.afterEjection
  dsimp only
  split
  · exact h.finishHalting
  · split
    · exact h.modGroup
    · split
      · exact h.release
      · exact h

/-! ### Members leaving (R126, R127, R130) -/

theorem ejected (h : Ruled p x d) {under : Option PointOutcome} {st : ChanState} (hst : st = .idle ∨ st = .halted) :
    Ruled p x (if takesPart d g c = true then Machine.ejectedChannel under st c d else d) := by
  split
  · next hpart =>
    have hp := h.noPreload (.inl (h.partSweeps (of_decide_eq_true hpart)))
    exact h.ejectedChannel (hst.imp_right fun hh => ⟨hh, hp⟩)
  · exact h

theorem eject (h : Ruled p x d) {under : Option PointOutcome} {st : ChanState} (hst : st = .idle ∨ st = .halted) {cause : HaltCause} :
    Ruled p x (eject g under st cause c d) := by
  have hhalting : Ruled p x (if (d.ctl c).haltReport = true then Machine.setHalting g d else d) := by
    split
    · exact h.setHalting
    · exact h
  have hpart : takesPart d g c = takesPart (if (d.ctl c).haltReport = true then Machine.setHalting g d else d) g c := by
    unfold takesPart
    split
    · unfold Machine.setHalting
      rw [Device.ctl_chan, Device.ctl_chan, paceRefresh_chan, modGroup_chan]
    · rfl
  have hout := hhalting.ejected (g := g) (c := c) (under := under) hst
  rw [← hpart] at hout
  unfold Machine.eject
  dsimp only
  refine Ruled.afterEjection (Ruled.raiseIf (Ruled.raiseIf (Ruled.raise (Ruled.modGroup ?_))))
  split
  · exact hout.modCtl
  · exact hout.modCtl

theorem groupAbort_ctl (g : Grp) (c : Chan) (d : Device) : ((Machine.groupAbort g d).ctl c).state = (d.ctl c).state := by
  rw [groupAbort_eq, Device.ctl_chan, groupSweepEnds_chan]
  unfold handedEnd
  split <;> rfl

theorem leadAborts (h : Ruled p x d) {w : Bool} {under : Option PointOutcome} {st : ChanState} :
    Closes w p x c (leadAborts w g under st c d) := by
  unfold Machine.leadAborts
  dsimp only
  split
  · next hpart =>
    have hs := h.partSweeps (of_decide_eq_true hpart)
    obtain rfl := h.noPreload (.inl hs)
    have hs' := (groupAbort_ctl g c d).trans hs
    split
    · exact h.groupAbort.memberHalts fun _ => hs'
    · exact h.groupAbort.memberAborts fun _ => hs'
  · exact h.groupAbort.closes

/-! ### The start of a group (R119) -/

theorem joinSweep_frame {k : Controller} {y : SweepConfig} {w : Window} (hno : noWork k) : sweepFrame (joinSweep g y w k) := by
  obtain ⟨_, _, _, _, hanchor, _, _⟩ := hno
  exact ⟨.inl rfl, rfl, rfl, hanchor, fun hm => absurd hm Bool.false_ne_true, fun q hq => by cases hq⟩

theorem chanRule_joinSweep {k : Channel} (h : chanRule k) (hs : k.ctl.state = .idle) (y : SweepConfig) (w : Window) :
    chanRule { k with ctl := joinSweep g y w k.ctl } :=
  (chanRule_working (.inl rfl)).mpr
    ⟨⟨joinSweep_frame (free_rule h (.inl hs)).1, rfl, fun he => absurd he Bool.false_ne_true⟩, fun hm => h.2 (.inr hm)⟩

theorem groupReady_idle (h : groupReady d g = true) {b : Chan} (hb : inMask (d.group g).members b = true) : (d.ctl b).state = .idle := by
  have hall := (all_chans _).mp h b
  rw [hb] at hall
  exact of_decide_eq_true hall

theorem groupStart (h : Ruled false x d) {y : SweepConfig} {w : Window} (hready : groupReady d g = true) :
    Ruled false x (groupStart g c y w d) := by
  rw [groupStart_eq]
  refine Ruled.paceRefresh (h.mapped rfl rfl fun b hb => ⟨?_, fun hp => by cases hp⟩)
  rw [mapChans_chan, modGroup_chan]
  have hjoined : chanRule (if inMask (d.group g).members b = true then { d.chan b with ctl := joinSweep g y w (d.chan b).ctl } else d.chan b) := by
    split
    · next hm => exact chanRule_joinSweep (h.chan b) (groupReady_idle hready hm) y w
    · exact h.chan b
  dsimp only
  split
  · exact hjoined
  · exact hjoined

/-! ### Grants to the Pace Controller and the barrier (R120, R121, R123, R125, R129, R130) -/

theorem paceGrant (h : Ruled p x d) {f : Device → Device} (hf : Ruled p x (f (Machine.servedGroup g d))) :
    Ruled p x (paceGrant g f d) := by
  unfold Machine.paceGrant
  split
  · exact hf.paceRefresh
  · exact h

theorem groupCheckGrant (h : Ruled p x d) : Ruled p x (groupCheckGrant g d) := by
  unfold Machine.groupCheckGrant
  split
  · exact (h.atLead fun _ => h.showProgress).modGroup
  · exact h

theorem leadStatus (h : Ruled p x d) {st : LastStatus} : Ruled p x (Machine.modCtl c (endStatus st) d) := by
  refine h.modCtl (fun hk => ?_) (endStatus_same _ _).1
  unfold endStatus
  split <;> exact hk

theorem inGroupCheck_part (h : inGroupCheck d g c = true) : (d.ctl c).group = some g :=
  of_decide_eq_true (Bool.and_eq_true_iff.mp h).1

theorem beginGroupSweep (h : Ruled p x d) : Ruled p x (beginGroupSweep g d) := by
  have hmembers : ∀ {m : BitVec 8} {e : Device}, Ruled p x e → Ruled p x (Machine.forMask m (fun c d =>
      if inGroupCheck d g c then Machine.modCtl c (fun k => { k with seq := k.seq + 1, stopping := false, task := .memberWait }) d
      else d) e) := fun he => he.forMask fun c e' he' => by
    split
    · next hin =>
      have hs := he'.partSweeps (inGroupCheck_part hin)
      obtain rfl := he'.noPreload (.inl hs)
      exact he'.sweepWork hs rfl (by intro h'; cases h')
    · exact he'
  unfold Machine.beginGroupSweep
  dsimp only
  have hbegun := (h.atLead (g := g) (f := fun c => Machine.modCtl c (endStatus .accepted)) fun _ => h.leadStatus).modGroup
    (g := g) (f := fun y => { y with begun := true })
  split
  · exact (hmembers hbegun).groupWalkFrom
  · exact hmembers hbegun

theorem failGroupCheck (h : Ruled p x d) : Ruled p x (failGroupCheck g d) := by
  refine Ruled.quietClose ((h.atLead fun _ => h.leadStatus.raise).forMask fun c e he => ?_)
  split
  · exact he.toRest (.inl rfl)
  · exact he

theorem takeGroupCheckEnd (h : Ruled p x d) : Ruled p x (takeGroupCheckEnd g d) := by
  unfold Machine.takeGroupCheckEnd
  split
  · split
    · exact h
    · dsimp only
      split
      · exact (h.atLead fun _ => h.showResult).beginGroupSweep
      · exact (h.atLead fun _ => h.showResult).failGroupCheck
  · exact h

theorem groupWalkGrant (h : Ruled p x d) : Ruled p x (groupWalkGrant g d) := by
  unfold Machine.groupWalkGrant
  split
  · split
    · exact h.groupWalkFrom
    · exact h.modGroup.handAll
    · exact (h.atLead fun _ => h.showFetchFailure).groupHalt
  · exact h

theorem groupSelectedGrant (h : Ruled p x d) : Ruled p x (groupSelectedGrant g d) := by
  unfold Machine.groupSelectedGrant
  split
  · split
    · exact h.handAll.closeGroup
    · exact (h.atLead fun _ => h.showFetchFailure).groupHalt
  · exact h

theorem takeReport (h : Ruled p x d) : Ruled p x (takeReport c d) := by
  unfold Machine.takeReport
  split
  · dsimp only
    split
    · split
      · exact h.modCtl.modGroup.release
      · exact h.modCtl.modGroup
    · exact h.modCtl
  · exact h.modCtl
  · exact h

theorem takeBarrierTimeout (h : Ruled p x d) : Ruled p x (takeBarrierTimeout g d) := by
  unfold Machine.takeBarrierTimeout
  dsimp only
  split
  · have hejects : ∀ m, Ruled p x (Machine.forMask m (Machine.eject g (some .ejected) .idle .none)
        (Machine.modGroup g (fun y => { y with barrier := none }) d)) := fun m => h.modGroup.forMask fun _ _ he => he.eject (.inl rfl)
    split
    · split
      · exact h.modGroup.groupAbort
      · exact hejects _
    · exact hejects _
  · exact h

theorem takeHaltReport (h : Ruled p x d) : Ruled p x (takeHaltReport c d) := by
  unfold Machine.takeHaltReport
  split
  · dsimp only
    split
    · exact h.modCtl.enterHalting
    · exact h.modCtl
  · exact h

theorem forGroups (h : Ruled p x d) {f : Grp → Device → Device} (hf : ∀ g e, Ruled p x e → Ruled p x (f g e)) :
    Ruled p x (forGroups f d) := h.foldl_ruled allGroups fun e g => hf g e

theorem groupLoss (h : Ruled p x d) :
    Ruled p x (if d.groupRefLoss then Machine.forGroups Machine.enterHalting { d with groupRefLoss := false } else d) := by
  split
  · exact Ruled.forGroups (h.ofSame) fun _ _ he => he.enterHalting
  · exact h

/-! ### What reaches a channel from its checker and from REFCLK (R13, R69, R70, R107, R126, R130) -/

theorem takeSignal (h : Ruled p x d) {w : Bool} {y : Handed} : Closes w p x c (takeSignal w c y d) := by
  unfold Machine.takeSignal
  dsimp only
  cases y with
  | closure early =>
    dsimp only
    split
    · exact h.endPoint.closes
    · exact h.closes
  | lockLost =>
    dsimp only
    split
    · exact h.endPoint.closes
    · exact h.closes
  | lockGained =>
    dsimp only
    split
    · next q ht =>
      have hw := h.works (c := c) (by rw [ht]; simp)
      obtain rfl := h.noPreload hw
      exact (h.enterDwell hw).closes
    · exact h.closes
  | signalLost =>
    dsimp only
    split
    · next hcounts =>
      have hne : (d.ctl c).task ≠ .idle := fun hi => by rw [hi] at hcounts; cases hcounts
      obtain rfl := h.noPreload (h.works hne)
      split
      · split
        · exact h.leadAborts
        · exact (h.eject (.inr rfl)).closes
      · exact h.haltChannel
    · exact h.closes

theorem fromInbox (h : Ruled p x d) {w pass : Bool} {want : Handed → Bool} : Closes w p x c (fromInbox w want pass c d) := by
  unfold Machine.fromInbox
  split
  · exact h.modCtl.takeSignal
  · exact h.closes

theorem takeRefLoss (h : Ruled p x d) {w : Bool} : Closes w p x c (takeRefLoss w c d) := by
  unfold Machine.takeRefLoss
  dsimp only
  split
  · exact h.closes
  · exact h.closes
  · exact h.closes
  · next hs =>
    obtain rfl : p = false := h.active.symm.trans (h.awake (c := c) (by unfold restful; rw [hs]; simp)).active
    exact h.haltChannel
  · next hs =>
    obtain rfl := h.noPreload (.inr hs)
    exact h.haltChannel
  · next hs =>
    obtain rfl := h.noPreload (.inl hs)
    split
    · exact h.modGroup.memberHalts fun _ => hs
    · split
      · exact h.showAbandoned.haltChannel
      · exact h.haltChannel

end Ruled

end Sys2Proof.Machine
end

section
/-! What the channel commands and the writes of the channel registers keep of the rules of the channel states (R20 to R30, R71 to R74,
R131, R133). -/

namespace Sys2Proof.Machine

-- One theorem after another: a thread for each would take the memory a check allows.
set_option Elab.async false

open Sys2Proof

namespace Ruled

/-! ### Checkers (R28) -/

theorem staysOff_refl (k : Checker) : staysOff k k := ⟨rfl, id⟩

theorem staysOff_on {k k' : Checker} (hm : k'.mode = k.mode) (hs : k.state ≠ .off) : staysOff k k' := ⟨hm, fun ho => absurd ho hs⟩

theorem staysOff_restart (k : Checker) : staysOff k (chkRestart k).chk := by
  unfold chkRestart
  split
  · exact staysOff_refl k
  · exact staysOff_refl k
  · next hs => exact staysOff_on rfl (by simp [hs])
  · next hs => exact staysOff_on rfl (by simp [hs])

theorem staysOff_break (r : Bool) (k : Checker) : staysOff k (chkBreak r k).chk := by
  unfold chkBreak
  split
  · exact staysOff_refl k
  · next hs => exact staysOff_on rfl (by simp [hs])
  · exact staysOff_refl k
  · next hs => exact staysOff_on rfl (by simp [hs])
  · next hs => exact staysOff_on rfl (by simp [hs])
  · next hs => exact staysOff_on rfl (by simp [hs])
  · next hs => exact staysOff_on rfl (by simp [hs])

theorem searchLfsr_mode (w : LaneWord) (k : Checker) : (searchLfsr w k).chk.mode = k.mode := by
  unfold searchLfsr
  split
  · rfl
  · split
    · rfl
    · dsimp only; split <;> rfl

theorem searchUser_mode (g : Generator) (w : LaneWord) (k : Checker) : (searchUser g w k).chk.mode = k.mode := by
  unfold searchUser
  dsimp only
  split <;> rfl

theorem compareWord_mode (g : Generator) (w : LaneWord) (k : Checker) : (compareWord g w k).chk.mode = k.mode := by
  have hreference : (advanceReference g k).mode = k.mode := by unfold advanceReference; split <;> rfl
  unfold compareWord
  dsimp only
  split_ifs <;> exact hreference

theorem staysOff_word (g : Generator) (w : LaneWord) (k : Checker) : staysOff k (chkWord g w k).chk := by
  unfold chkWord
  split
  · exact staysOff_refl k
  · exact staysOff_refl k
  · next hs =>
    split
    · exact staysOff_on (searchLfsr_mode w k) (by simp [hs])
    · exact staysOff_on (searchLfsr_mode w k) (by simp [hs])
    · exact staysOff_on (searchUser_mode g w k) (by simp [hs])
    · exact staysOff_refl k
  · next hs => exact staysOff_on (compareWord_mode g w k) (by simp [hs])

/-- A written Checker Mode OFF takes the checker into OFF, and no write of it changes the mode stored. -/
theorem modeWritten_off (r : Bool) (k : Checker) : (chkModeWritten r k).chk.mode = .off → (chkModeWritten r k).chk.state = .off := by
  unfold chkModeWritten
  split
  · next hm =>
    intro _
    unfold chkModeOff
    split
    · next hs => exact hs
    · rfl
    · rfl
    · rfl
  next hm =>
    split
    · intro h'
      exfalso
      revert h'
      unfold chkLeaveOff
      rw [if_neg hm]
      split <;> exact hm
    · intro h'
      exact absurd ((staysOff_restart k).1.symm.trans h') hm

variable {p : Bool} {x : Option Ending} {d e : Device} {c : Chan} {g : Grp}

/-! ### Powering up and down (R20, R28, R71, R72) -/

theorem powerUp (h : Ruled p x d) (hoff : (d.ctl c).state = .off) : Ruled p x (powerUp c d) := by
  have hup : Ruled p x (Machine.modChan c (fun k =>
      { k with front := restSettings, gen := genRestart k.gen, ctl := { k.ctl with state := .idle, current := none } }) d) := by
    refine h.oneChan (fun hk => ?_) fun _ _ => .inr rfl
    have hrule := hk.1
    unfold stateRule at hrule
    rw [show (d.chan c).ctl.state = .off from hoff] at hrule
    exact ⟨⟨hrule.1, rfl, rfl, hrule.2.2.2⟩, fun _ => hk.2 (.inl hoff)⟩
  unfold Machine.powerUp
  dsimp only
  have hout : ∀ r : Bool, Ruled p x (Machine.modChan c (fun k => { k with chk := chkLeaveOff r k.chk }) (Machine.modChan c (fun k =>
      { k with front := restSettings, gen := genRestart k.gen, ctl := { k.ctl with state := .idle, current := none } }) d)) := fun r => by
    refine hup.same fun hk => ⟨hk.1, fun ho => ?_⟩
    unfold chkLeaveOff at ho ⊢
    split
    · next hm => exact hk.2 (.inr hm)
    · next hm =>
      rw [if_neg hm] at ho
      rcases ho with ho | ho
      · rw [modChan_chan_self] at ho; cases ho
      · split at ho <;> exact absurd ho hm
  split
  · exact (hout _).reportChanged
  · exact hout _

theorem powerDown (h : Ruled p x d) : Ruled p x (powerDown c d) := by
  rw [powerDown_eq]
  have hoff : Ruled p x (offAlone c d) := by
    have hd : Ruled p x (Machine.modChan c (fun k => { k with
        front := restSettings, chk := chkEnterOff k.chk, ctl := { dropWork .off k.ctl with inbox := handedAtOff k.chk } }) d) :=
      h.oneChan (fun _ => ⟨⟨⟨rfl, rfl, rfl, rfl, rfl, rfl, rfl⟩, rfl, rfl, rfl⟩, fun _ => rfl⟩) fun _ _ => .inl rfl
    exact hd.ofSame
  split
  · exact hoff.reportChanged
  · exact hoff

theorem endWork (h : Ruled p x d) : Ruled p x (endWork c d) := by
  unfold Machine.endWork
  split
  · split
    · split
      · exact h.leadAborts.ruled
      · exact h.abandonGroupCheck
    · exact h.eject (.inl rfl)
  · split
    · exact h.abandonCheck
    · exact h.abortSweep

/-! ### The channel commands (R136) -/

theorem cmdEnable (h : Ruled p x d) : Ruled p x (cmdEnable c d) := by
  unfold Machine.cmdEnable
  split
  · exact h.refuse
  next hoff =>
    split
    · exact h.refuse
    · split
      · exact h.refuse
      · exact h.accept.powerUp ((accept_state ..).trans (not_not.mp hoff))

theorem cmdDisable (h : Ruled p x d) : Ruled p x (cmdDisable c d) := by
  unfold Machine.cmdDisable
  dsimp only
  split
  · exact h.accept
  · exact h.accept.endWork.powerDown

theorem groupReady_accept {code : BitVec 8} {st : LastStatus} (hr : groupReady d g = true) :
    groupReady (Machine.accept code st c d) g = true := by
  refine (all_chans _).mpr fun b => ?_
  have hall := (all_chans _).mp hr b
  have hstate : ((Machine.accept code st c d).ctl b).state = (d.ctl b).state := by
    unfold Machine.accept
    rw [modCtl_ctl]
    split
    · next hb => rw [hb]
    · rfl
  rw [hstate]
  exact hall

theorem cmdStartSweep (h : Ruled p x d) : Ruled p x (cmdStartSweep c d) := by
  unfold Machine.cmdStartSweep
  split
  · exact h.refuse
  next hfree =>
    split
    · exact h.refuse
    next hp =>
      obtain rfl := h.ofInactive hp
      split
      · exact h.refuse
      · split
        · exact h.refuse
        · split
          · exact h.refuse
          · split
            · split
              · next hready => exact h.accept.groupStart (groupReady_accept hready)
              · exact h.refuse
            · exact h.accept.beginCheck (by rw [accept_state]; exact freeToStart_state hfree)

theorem stopGroup (h : Ruled p x d) : Ruled p x (stopGroup g d) := by
  unfold Machine.stopGroup
  split
  · exact h.modGroup.atMembers fun _ _ he hg => he.stopTaken (he.partSweeps hg)
  · exact h.abandonGroupCheck

theorem cmdStop (h : Ruled p x d) : Ruled p x (cmdStop c d) := by
  unfold Machine.cmdStop
  split
  · next hs =>
    obtain rfl := h.noPreload (.inl hs)
    split
    · split
      · exact h.accept.stopGroup
      · exact h.refuse
    · exact h.accept.stopSweep ((accept_state ..).trans hs)
  · next hs =>
    obtain rfl := h.noPreload (.inr hs)
    exact h.accept.stopTrack ((accept_state ..).trans hs)
  all_goals exact h.refuse

theorem abortMember (h : Ruled p x d) : Ruled p x (abortMember g c d) := by
  unfold Machine.abortMember
  split
  · split
    · exact h.leadAborts.ruled
    · exact h.abandonGroupCheck
  · exact h.eject (.inl rfl)

theorem cmdAbort (h : Ruled p x d) : Ruled p x (cmdAbort c d) := by
  unfold Machine.cmdAbort
  split
  · next hs =>
    obtain rfl := h.noPreload (.inl hs)
    split
    · exact h.accept.abortMember
    · exact h.accept.abortSolo ((accept_state ..).trans hs)
  · next hs =>
    obtain rfl := h.noPreload (.inr hs)
    exact h.accept.abortTrack ((accept_state ..).trans hs)
  all_goals exact h.refuse

theorem cmdClearCounters (h : Ruled p x d) : Ruled p x (cmdClearCounters c d) := by
  unfold Machine.cmdClearCounters
  split
  · exact h.refuse
  · exact h.accept.same id

theorem leaveGroups (h : Ruled p x d) : Ruled p x (leaveGroups c d) := by
  rw [leaveGroups_eq]
  exact h.ofSame

theorem resetValues (h : Ruled p x d) {n : Nat} {l : List Handed} : Ruled p x (Machine.modChan c (resetValues n l) d) :=
  h.oneChan (fun _ => ⟨⟨⟨rfl, rfl, rfl, rfl, rfl, rfl, rfl⟩, rfl, rfl, rfl⟩, fun _ => rfl⟩) fun _ _ => .inl rfl

theorem cmdResetChannel (h : Ruled p x d) : Ruled p x (cmdResetChannel c d) := by
  unfold Machine.cmdResetChannel
  dsimp only
  have hend : Ruled p x (if ((d.ctl c).state = .off && (runningGroup d c).isNone) = true then d else
      Machine.powerDown c (Machine.endWork c d)) := by
    split
    · exact h
    · exact h.endWork.powerDown
  exact Ruled.resetValues (Ruled.ofSame hend.leaveGroups)

theorem takeCommand (h : Ruled p x d) {k : Command} : Ruled p x (takeCommand k c d) := by
  cases k with
  | enable => exact h.cmdEnable
  | disable => exact h.flushGroup.cmdDisable
  | startSweep => exact h.cmdStartSweep
  | startTrack => exact h.cmdStartTrack
  | single => exact h.cmdSingle
  | apply => exact h.cmdApply
  | stop => exact h.flushGroup.cmdStop
  | abort => exact h.flushGroup.cmdAbort
  | clearHalt => exact h.cmdClearHalt
  | clearCounters => exact h.cmdClearCounters
  | resetChannel => exact h.flushGroup.cmdResetChannel

/-! ### Configuration registers (R8, R21, R26 to R30, R45, R93) -/

theorem restarted (h : Ruled p x d) : Ruled p x (Machine.atChecker c chkRestart d) := h.atChecker (staysOff_restart _)

theorem modConfig (h : Ruled p x d) {f : ChanConfig → ChanConfig} : Ruled p x (modConfig c f d) := h.same id

theorem storeUser (h : Ruled p x d) {r : UserReg} {v : BusWord} : Ruled p x (storeUser r v c d) := by
  have hstored : Ruled p x (Machine.modChan c (fun k =>
      match r with
      | .length => { k with gen := userRestart { k.gen with userLength := userLengthOf v.toNat } }
      | .word q high =>
        { k with gen := userRestart { k.gen with userWords := k.gen.userWords.set q (setHalf (k.gen.userWords.get q) high v) } })
      d) := by
    cases r with
    | length => exact h.same id
    | word q high => exact h.same id
  unfold Machine.storeUser
  dsimp only
  split
  · exact hstored.restarted
  · exact hstored

theorem storeChecker (h : Ruled p x d) {r : CheckerReg} {v : BusWord} : Ruled p x (storeChecker r v c d) := by
  unfold Machine.storeChecker
  cases r with
  | mode =>
    dsimp only
    split
    · next hs => exact h.same fun hk => ⟨hk.1, fun _ => hk.2 (.inl hs)⟩
    · next hs =>
      generalize sourceReport _ c = report
      unfold Machine.atChecker
      rw [modChan_modChan]
      refine h.same fun hk => ⟨hk.1, fun ho => ?_⟩
      exact modeWritten_off report _ (ho.resolve_left hs)
  | fixedPattern => exact Ruled.restarted (h.same id)
  | fixedPolarity => exact Ruled.restarted (h.same id)

theorem storeGenMode (h : Ruled p x d) {v : BusWord} : Ruled p x (storeGenMode v c d) := h.same id

theorem storeCfg (h : Ruled p x d) {r : CfgReg} {v : BusWord} : Ruled p x (storeCfg r v c d) := by
  cases r with
  | user r => exact h.storeUser
  | checker r => exact h.storeChecker
  | genMode => exact h.storeGenMode
  | invert => unfold Machine.storeCfg; exact h.same id
  | _ => simp only [Machine.storeCfg, modTrackRegs, modSweepRegs]; exact h.modConfig

theorem storeTxSource (h : Ruled p x d) {v : BusWord} : Ruled p x (storeTxSource c v d) := by
  unfold Machine.storeTxSource
  exact Ruled.raiseIf h.ofSame

theorem storeCheckerSource (h : Ruled p x d) {v : BusWord} : Ruled p x (storeCheckerSource c v d) := by
  unfold Machine.storeCheckerSource
  split
  · exact h
  · exact (Ruled.raise h.ofSame).atChecker (staysOff_break ..)

end Ruled

end Sys2Proof.Machine
end

section
/-! What the Preload Controller, the host's writes, the lanes and the Timebase keep of the rules of the channel states and of a preload
in progress (R28, R145, R163 to R168, R173 to R177). -/

namespace Sys2Proof.Machine

-- One theorem after another: a thread for each would take the memory a check allows.
set_option Elab.async false

open Sys2Proof

/-- The rules hold, and no ending stands but one that stood before. -/
def SomeRuled (x : Option Ending) (d : Device) : Prop := ∃ p y, Ruled p y d ∧ (y = x ∨ y = none)

namespace Ruled

variable {p : Bool} {x : Option Ending} {d e : Device} {c : Chan} {g : Grp}

theorem some (h : Ruled p x d) : SomeRuled x d := ⟨p, x, h, .inl rfl⟩

/-! ### A preload in progress (R145, R168) -/

/-- The Preload Controller changes alone; it is at work only while a preload is in progress (`q`). -/
theorem preloads (h : Ruled p x d) {q : Bool} (hactive : preloadActive e = q) (hq : q = true → ∀ c, restful (d.ctl c))
    (hwork : e.preload.work ≠ .idle → q = true) (hchans : e.chans = d.chans := by rfl) (hending : e.ending = d.ending := by rfl) :
    Ruled q x e := by
  refine ⟨⟨fun c => ?_, fun hp c => ?_, fun hw => hactive.trans (hwork hw)⟩, hactive, hending.trans h.ending⟩
  · simp only [Device.chan, hchans]
    exact h.chan c
  · simp only [Device.ctl, hchans]
    exact hq (hactive.symm.trans hp) c

/-- The Preload Controller goes on: a preload is in progress or not, as before. -/
theorem preloadGoes (h : Ruled p x d) (hstate : e.preload.state = d.preload.state := by rfl)
    (hwork : e.preload.work ≠ .idle → p = true) (hchans : e.chans = d.chans := by rfl) (hending : e.ending = d.ending := by rfl) :
    Ruled p x e := by
  have hactive : preloadActive e = preloadActive d := by simp only [preloadActive, hstate]
  exact h.preloads (hactive.trans h.active) (fun hp c => h.states.2.1 (h.active.trans hp) c) hwork hchans hending

/-- The Preload Controller's work as it was. -/
theorem preloadSame (h : Ruled p x d) (hstate : e.preload.state = d.preload.state := by rfl)
    (hwork : e.preload.work = d.preload.work := by rfl) (hchans : e.chans = d.chans := by rfl) (hending : e.ending = d.ending := by rfl) :
    Ruled p x e := h.preloadGoes hstate (fun hw => h.active.symm.trans (h.states.2.2 (hwork ▸ hw))) hchans hending

/-- The Preload Controller is at work only while a preload is in progress. -/
theorem atWork (h : Ruled p x d) (hw : d.preload.work ≠ .idle) : p = true := h.active.symm.trans (h.states.2.2 hw)

theorem preloadEnds (h : Ruled p x d) (hactive : preloadActive e = false) (hwork : e.preload.work = .idle)
    (hchans : e.chans = d.chans := by rfl) (hending : e.ending = d.ending := by rfl) : Ruled false x e :=
  h.preloads hactive (fun hq => by cases hq) (fun hw => absurd hwork hw) hchans hending

theorem failPreload (h : Ruled p x d) {w : PreloadCause} : Ruled false x (failPreload w d) := h.preloadEnds rfl rfl

theorem startDone (h : Ruled p x d) : Ruled p x (startDone d) := by
  unfold Machine.startDone
  split
  · split
    · exact h.preloadSame
    · exact h
  · exact h

theorem endPreload (h : Ruled p x d) : Ruled false x (endPreload d) := by
  unfold Machine.endPreload
  exact Ruled.startDone (h.preloadEnds rfl rfl)

theorem nextBlock (h : Ruled true x d) : SomeRuled x (nextBlock d) := by
  unfold Machine.nextBlock
  dsimp only
  split
  · exact h.endPreload.some
  · exact (Ruled.preloadGoes h (hwork := fun _ => rfl)).some

theorem beginBlock (h : Ruled p x d) : Ruled p x (beginBlock d) := by
  unfold Machine.beginBlock
  split
  · next hw =>
    obtain rfl := h.atWork (by rw [hw]; simp)
    exact h.preloadGoes (hwork := fun _ => rfl)
  all_goals exact h

theorem blockApplied (h : Ruled true x d) : SomeRuled x (blockApplied d) := Ruled.nextBlock h.preloadSame

theorem blockSkipped (h : Ruled true x d) {r : SkipReason} : SomeRuled x (blockSkipped r d) := Ruled.nextBlock h.preloadSame

theorem judgeHeader (h : Ruled true x d) {ws : List BusWord} : SomeRuled x (judgeHeader ws d) := by
  unfold Machine.judgeHeader
  split
  · exact (h.preloads (q := true) rfl (fun _ c => h.states.2.1 h.active c) fun _ => rfl).some
  · exact (Ruled.failPreload (h.preloadSame)).some

theorem writeBlock (h : Ruled true x d) {t : BlockType} {ws : List BusWord} : SomeRuled x (writeBlock t ws d) := by
  cases t with
  | plan => exact (Ruled.preloadGoes h (hwork := fun _ => rfl)).some
  | ring => exact (Ruled.preloadGoes h (hwork := fun _ => rfl)).some
  | dwell => exact Ruled.blockApplied (h.forChans fun _ _ he => he.ofSame)
  | channel => exact Ruled.blockApplied (h.foldl_ruled _ fun _ _ he => he.storeCfg)
  | route =>
    exact Ruled.blockApplied ((h.forChans fun _ _ he => he.storeTxSource).forChans fun _ _ he => he.storeCheckerSource)
  | group =>
    have hgroup : Ruled true x (writeGroupBlock (targetGroup ((wordAt ws 0).toNat / 256)) ws d) := by
      rw [writeGroupBlock_eq]
      exact h.modGroup
    exact hgroup.blockApplied

theorem judgeBlock (h : Ruled true x d) : SomeRuled x (judgeBlock d) := by
  unfold Machine.judgeBlock
  dsimp only
  split
  · exact h.blockSkipped
  · exact h.writeBlock

theorem readBody (h : Ruled true x d) : SomeRuled x (readBody d) := by
  unfold Machine.readBody
  dsimp only
  split
  · exact h.judgeBlock
  · exact (Ruled.preloadGoes h (hwork := fun _ => rfl)).some

theorem transferDone (h : Ruled true x d) {t : Transfer} {data : List Byte} : SomeRuled x (transferDone t data d) := by
  unfold Machine.transferDone
  split
  · exact h.judgeHeader
  · rw [judgeHead_eq]
    split
    · exact h.failPreload.some
    · exact Ruled.readBody h.preloadSame
  · exact Ruled.readBody h.preloadSame

theorem takeTransfer (h : Ruled p x d) {data : List Byte} : SomeRuled x (takeTransfer data d) := by
  have hb := h.beginBlock
  unfold Machine.takeTransfer
  dsimp only
  split
  · next hw =>
    obtain rfl := hb.atWork (by rw [hw]; simp)
    split
    · exact hb.transferDone
    · exact h.some
  all_goals exact h.some

theorem takeNack (h : Ruled p x d) : SomeRuled x (takeNack d) := by
  have hb := h.beginBlock
  unfold Machine.takeNack
  dsimp only
  split
  · next hw =>
    obtain rfl := hb.atWork (by rw [hw]; simp)
    split
    · exact (Ruled.preloadGoes hb (hwork := fun _ => rfl)).some
    · exact hb.failPreload.some
  all_goals exact h.some

theorem takeRetry (h : Ruled p x d) : SomeRuled x (takeRetry d) := by
  unfold Machine.takeRetry
  split
  · next hw =>
    obtain rfl := h.atWork (by rw [hw]; simp)
    exact (Ruled.preloadGoes h (hwork := fun _ => rfl)).some
  all_goals exact h.some

theorem takeTimeout (h : Ruled p x d) : SomeRuled x (takeTimeout d) := by
  unfold Machine.takeTimeout
  dsimp only
  split
  · exact h.beginBlock.failPreload.some
  all_goals exact h.some

theorem writeTarget (h : Ruled p x d) {t : RamTarget} : Ruled p x (writeTarget t d) := by
  cases t with
  | entry i ws => exact h.writeWords
  | control c q w => exact h.writeWord

theorem takeRamWrite (h : Ruled p x d) : SomeRuled x (takeRamWrite d) := by
  unfold Machine.takeRamWrite
  split
  · split
    · exact h.some
    · next hw =>
      obtain rfl := h.atWork (by rw [hw]; simp)
      exact h.served.writeTarget.blockApplied
    · next hw =>
      obtain rfl := h.atWork (by rw [hw]; simp)
      exact (Ruled.preloadGoes h.served.writeTarget (hwork := fun _ => rfl)).some
    all_goals exact h.some
  · exact h.some

theorem takeHandedEnable (h : Ruled p x d) : Ruled p x (takeHandedEnable c d) := by
  unfold Machine.takeHandedEnable
  split
  · split
    · exact Ruled.startDone (Ruled.preloadSame (h.takeCommand (k := .enable) (c := c)))
    · exact h
  · exact h

theorem takeHandedStart (h : Ruled p x d) : Ruled p x (takeHandedStart c d) := by
  unfold Machine.takeHandedStart
  split
  · split
    · exact Ruled.startDone (Ruled.preloadSame (h.takeCommand (k := .startSweep) (c := c)))
    · exact h
  · exact h

/-! ### Device commands (R142 to R146) -/

theorem allQuiet_restful (h : allQuiet d = true) (c : Chan) : restful (d.ctl c) := by
  have hc := (all_chans _).mp h c
  simpa only [restful, Bool.or_eq_true, decide_eq_true_eq] using hc

theorem deviceCommandWrite (h : Ruled p x d) {v : BusWord} : SomeRuled x (deviceCommandWrite v d) := by
  unfold Machine.deviceCommandWrite
  split
  · exact (Ruled.forMask h.ofSame fun _ _ he => he.same id).some
  · unfold cmdPreload
    split
    · next hq =>
      have hrest := allQuiet_restful (Bool.and_eq_true_iff.mp hq).1
      exact (h.preloads (q := true) rfl (fun _ => hrest) fun _ => rfl).some
    · exact (Ruled.ofSame h).some
  · unfold cmdAbortPreload
    split
    · exact (h.preloadEnds rfl rfl).some
    · exact (Ruled.ofSame h).some
  · exact (Ruled.ofSame h).some

end Ruled

end Sys2Proof.Machine
end

section
/-! Every step keeps the rules of the channel states, and an ending stands between its fills only where R180 has it wait (O6). -/

namespace Sys2Proof.Machine

-- One theorem after another: a thread for each would take the memory a check allows.
set_option Elab.async false

open Sys2Proof

namespace Ruled

variable {p : Bool} {x : Option Ending} {d e : Device} {c : Chan} {g : Grp}

/-! ### Host writes (R133, R135, R136, R176) -/

theorem dropWrite (h : Ruled p x d) {o : Nat} : Ruled p x (dropWrite o d) := Ruled.badWrite h.preloadSame

theorem unlessPreload (h : Ruled p x d) {o : Nat} {f : Device → Device} (hf : Ruled p x (f d)) : Ruled p x (unlessPreload o f d) := by
  unfold Machine.unlessPreload
  split
  · exact h.dropWrite
  · exact hf

theorem pageWrite (h : Ruled p x d) {o : Nat} {f : Chan → Device → Device} (hf : ∀ c e, Ruled p x e → Ruled p x (f c e)) :
    Ruled p x (pageWrite o f d) := by
  unfold Machine.pageWrite
  split
  · exact h.badWrite
  · exact h.forMask hf

theorem pageConfigWrite (h : Ruled p x d) {o : Nat} {f : Chan → Device → Device} (hf : ∀ c e, Ruled p x e → Ruled p x (f c e)) :
    Ruled p x (pageConfigWrite o f d) := by
  unfold Machine.pageConfigWrite
  split
  · exact h.badWrite
  · exact h.unlessPreload (h.forMask hf)

theorem commandAt (h : Ruled p x d) {v : BusWord} : Ruled p x (commandAt v c d) := by
  unfold Machine.commandAt
  split
  · exact h.takeCommand
  · exact h.refuse

theorem eventClearAt (h : Ruled p x d) {v : BusWord} : Ruled p x (eventClearAt v c d) := Ruled.same h.countFree id

theorem enableAt (h : Ruled p x d) {v : BusWord} : Ruled p x (enableAt v c d) := h.same id

theorem overrunAt (h : Ruled p x d) : Ruled p x (overrunAt c d) := h.modCtl

theorem pageWriteAt (h : Ruled p x d) {o : Nat} {v : BusWord} : Ruled p x (pageWriteAt o v d) := by
  unfold Machine.pageWriteAt
  split
  · exact h.pageConfigWrite fun _ _ he => he.storeCfg
  · split
    · exact h.pageWrite fun _ _ he => he.commandAt
    · exact h.pageWrite fun _ _ he => he.modCtl
    · exact h.pageConfigWrite fun _ _ he => he.overrunAt
    · exact h.pageWrite fun _ _ he => he.eventClearAt
    · exact h.pageWrite fun _ _ he => he.enableAt
    · exact h.pageWrite fun _ _ he => he

theorem refDividerWrite (h : Ruled p x d) {v : BusWord} : Ruled p x (refDividerWrite v d) := by
  refine h.unlessPreload ?_
  dsimp only
  split
  · exact h.badWrite
  · exact h.ofSame

theorem membersWrite (h : Ruled p x d) {v : BusWord} : Ruled p x (membersWrite g v d) := by
  refine h.unlessPreload ?_
  split
  · exact h.modGroup
  · exact h.badWrite

theorem leadWrite (h : Ruled p x d) {v : BusWord} : Ruled p x (leadWrite g v d) := by
  refine h.unlessPreload ?_
  split
  · exact h.modGroup
  · exact h.badWrite

theorem groupWriteAt (h : Ruled p x d) {part : Nat} {v : BusWord} : Ruled p x (groupWriteAt g part v d) := by
  unfold Machine.groupWriteAt
  split
  · exact h.membersWrite
  · exact h.leadWrite
  · exact h.unlessPreload h.modGroup
  · exact h

theorem deviceEventWrite (h : Ruled p x d) {v : BusWord} : Ruled p x (deviceEventWrite v d) := h.ofSame

theorem txSourceWrite (h : Ruled p x d) {v : BusWord} : Ruled p x (txSourceWrite c v d) := h.unlessPreload h.storeTxSource

theorem checkerSourceWrite (h : Ruled p x d) {v : BusWord} : Ruled p x (checkerSourceWrite c v d) := h.unlessPreload h.storeCheckerSource

theorem deviceWriteAt (h : Ruled p x d) {o : Nat} {v : BusWord} : SomeRuled x (deviceWriteAt o v d) := by
  unfold Machine.deviceWriteAt
  split
  · exact (Ruled.ofSame h).some
  · exact h.deviceCommandWrite
  · exact (Ruled.ofSame h).some
  · exact h.refDividerWrite.some
  · exact h.deviceEventWrite.some
  · exact (Ruled.ofSame h).some
  · split
    · exact (h.unlessPreload h.ofSame).some
    · split
      · exact h.txSourceWrite.some
      · split
        · exact h.checkerSourceWrite.some
        · exact h.some

/-! ### The shared RAM and the endings (R77, R180) -/

/-- A host write of ring `c` lets an ending of the channel go on. -/
theorem ringControlWrite (h : Ruled false x d) {q : RingPos} {v : BusWord} : Ruled false (leftStanding c x) (ringControlWrite c q v d) := by
  unfold Machine.ringControlWrite Machine.unlessPreload
  rw [if_neg (by rw [h.active]; decide)]
  refine Ruled.goOnEnding ?_
  split
  · exact h.writeWord.modCtl
  · exact h.writeWord

theorem ringBodyWrite (h : Ruled false x d) {o : Nat} {v : BusWord} : Ruled false (leftStanding c x) (ringBodyWrite c o v d) := by
  unfold Machine.ringBodyWrite Machine.unlessPreload
  rw [if_neg (by rw [h.active]; decide)]
  exact h.writeWord.goOnEnding

theorem leftStanding_or (c : Chan) (x : Option Ending) : leftStanding c x = x ∨ leftStanding c x = none := by
  unfold leftStanding
  split
  · split
    · exact .inr rfl
    · exact .inl rfl
  · exact .inr rfl

theorem ringControl_some (h : Ruled p x d) {q : RingPos} {v : BusWord} : SomeRuled x (Machine.ringControlWrite c q v d) := by
  cases p with
  | false => exact ⟨_, _, h.ringControlWrite, leftStanding_or c x⟩
  | true =>
    unfold Machine.ringControlWrite Machine.unlessPreload
    rw [if_pos h.active]
    exact h.dropWrite.some

theorem ringBody_some (h : Ruled p x d) {o : Nat} {v : BusWord} : SomeRuled x (Machine.ringBodyWrite c o v d) := by
  cases p with
  | false => exact ⟨_, _, h.ringBodyWrite, leftStanding_or c x⟩
  | true =>
    unfold Machine.ringBodyWrite Machine.unlessPreload
    rw [if_pos h.active]
    exact h.dropWrite.some

theorem writeAt (h : Ruled p x d) {o : Nat} {v : BusWord} : SomeRuled x (writeAt o v d) := by
  unfold Machine.writeAt
  split_ifs
  · exact h.deviceWriteAt
  · exact h.groupWriteAt.some
  · exact h.some
  · exact h.pageWriteAt.some
  · exact h.some
  · exact (h.unlessPreload h.writeWord).some
  · unfold ringWriteAt
    dsimp only
    split
    · exact h.ringControl_some
    · exact h.ringBody_some
  · exact h.some

theorem readAt (h : Ruled p x d) {o : Nat} : Ruled p x (readAt o d) := by
  unfold Machine.readAt
  dsimp only
  split
  · exact h.ofSame
  · exact h.ofSame

/-! ### Words, ticks and REFCLK (R20, R30, R158 to R164) -/

theorem advance (h : Ruled p x d) : Ruled p x (advance d) :=
  h.mapped rfl rfl fun b hb => by
    simp only [Machine.advance, Device.chan, Device.ctl, Eight.get_build]
    exact ⟨hb, fun _ => id⟩

theorem sendWords (h : Ruled p x d) : Ruled p x (sendWords d) :=
  h.mapped rfl rfl fun b hb => by
    simp only [Machine.sendWords, Device.chan, Device.ctl, Eight.get_build]
    exact ⟨hb, fun _ => id⟩

theorem wordTime (h : Ruled p x d) : Ruled p x (wordTime d) := by
  unfold Machine.wordTime
  dsimp only
  split
  · split
    · exact Ruled.advance (Ruled.ofSame h.sendWords)
    · exact Ruled.ofSame h.sendWords
  · exact h

theorem wordTimes (h : Ruled p x d) (n : Nat) : Ruled p x (wordTimes n d) := by
  induction n generalizing d with
  | zero => exact h
  | succ n ih => exact ih h.wordTime

theorem tick (h : Ruled p x d) : Ruled p x (tick d) := by
  unfold Machine.tick
  split
  · exact h.wordTimes _
  · exact h

theorem receiveWord (h : Ruled p x d) {w : LaneWord} : Ruled p x (receiveWord c w d) := by
  unfold Machine.receiveWord
  split
  · refine Ruled.forChans (Ruled.ofSame h) fun b e he => ?_
    split
    · exact he.atChecker (staysOff_word ..)
    · exact he
  · exact h

theorem refLost (h : Ruled p x d) : Ruled p x (refLost d) := by
  unfold Machine.refLost
  split
  · refine Ruled.devRaise (?_ : Ruled p x _)
    refine h.mapped rfl rfl fun b hb => ?_
    simp only [Device.chan, Device.ctl, Eight.get_build]
    exact ⟨hb, fun _ => id⟩
  · exact h

theorem refOk (h : Ruled p x d) : Ruled p x (refOk d) := by
  unfold Machine.refOk
  split
  · exact h
  · refine Ruled.devRaise (Ruled.wordTime (?_ : Ruled p x _))
    refine h.mapped rfl rfl fun b hb => ?_
    simp only [Device.chan, Device.ctl, Eight.get_build]
    exact ⟨hb, fun _ => id⟩

theorem takeRefReturn (h : Ruled p x d) : Ruled p x (takeRefReturn c d) := by
  unfold Machine.takeRefReturn
  split
  · exact Ruled.atChecker (h.same id) (staysOff_break ..)
  · exact h

theorem setActivity (h : Ruled p x d) {b : Bool} : Ruled p x (setActivity c b d) := by
  unfold Machine.setActivity
  dsimp only
  split
  · exact Ruled.reportChanged h.ofSame
  · exact h.ofSame

/-! ### Resets and the idle part (R163, R166, R167, R179) -/

/-- Every channel is at its default, and no preload is in progress. -/
theorem reset (hc : ∀ c, d.chan c = Channel.default) (hstate : preloadActive d = false) (hwork : d.preload.work = .idle)
    (hending : d.ending = none) : Ruled false none d :=
  ⟨⟨fun c => hc c ▸ chanRule_default, fun hp => absurd (hp.symm.trans hstate) (by decide), fun hw => absurd hwork hw⟩, hstate, hending⟩

theorem serveAccesses {l : List Access} (h : SomeRuled none d) : SomeRuled none (l.foldl (fun d a => serveAccess a d) d) := by
  induction l generalizing d with
  | nil => exact h
  | cons a l ih =>
    obtain ⟨p, y, hd, hy⟩ := h
    obtain rfl : y = none := hy.elim id id
    refine ih ?_
    cases a with
    | write o v => exact hd.writeAt
    | read o => exact hd.readAt.some

theorem endOfReset (h : Ruled p x d) {q r : Bool} {ma : BitVec 2} : SomeRuled x (endOfReset q ma r d) := by
  unfold Machine.endOfReset
  split
  · have hreset : Ruled false none (Device.afterReset q ma r d.lanes.activity d.ram d.epoch d.free) :=
      reset (fun c => afterReset_chan ..) rfl rfl rfl
    have hserved : SomeRuled none (d.host.waiting.foldl (fun d a => serveAccess a d)
        (if q = true then beginPreload (Device.afterReset q ma r d.lanes.activity d.ram d.epoch d.free)
          else Device.afterReset q ma r d.lanes.activity d.ram d.epoch d.free)) := by
      refine serveAccesses ?_
      split
      · exact (hreset.preloads (q := true) rfl (fun _ c => .inl (congrArg Controller.state (afterReset_ctl ..))) fun _ => rfl).some
      · exact hreset.some
    obtain ⟨n, y, hd, hy⟩ := hserved
    exact ⟨n, y, hd, .inr (hy.elim id id)⟩
  · exact h.some

theorem idle (h : Ruled p x d) : Ruled p x (idle d) := by
  rcases idle_cases d with ⟨_, _, hi⟩ | ⟨c, v, l, _, hi⟩ | ⟨v, l, _, hi⟩ | ⟨hw, hi⟩ <;> rw [hi]
  · exact h
  · exact Ruled.same h.countFree id
  · exact h.ofSame
  · rw [← beginBlock_eq (d := { d with free := d.free + 1 }) hw]
    exact h.countFree.beginBlock

end Ruled

end Sys2Proof.Machine
end

section
/-! Every row, and every step, keeps the rules of the channel states; an ending stands between its two fills only in SWEEP, while a
host write of its ring is the command to be taken next. Here O6 is settled. -/

namespace Sys2Proof.Machine

-- One theorem after another: a thread for each would take the memory a check allows.
set_option Elab.async false

open Sys2Proof

/-- The rules hold in `e`, and an ending that stands there stood in `d` before, or is one of a channel in SWEEP for whose ring the first
command of `l` waits. -/
structure StepRuled (l : List Instr) (d e : Device) : Prop where
  states : statesRule e
  ending : ∀ y, e.ending = some y →
    d.ending = some y ∨ (e.held = false ∧ (e.ctl y.chan).state = .sweep ∧ hostWaits y.chan l = true)

theorem Ruled.refl {d : Device} (h : statesRule d) : Ruled (preloadActive d) d.ending d := ⟨h, rfl, rfl⟩

theorem SomeRuled.step {l : List Instr} {d e : Device} (h : SomeRuled d.ending e) : StepRuled l d e := by
  obtain ⟨p, x, he, hx⟩ := h
  refine ⟨he.states, fun y hy => .inl ?_⟩
  rw [he.ending] at hy
  rcases hx with rfl | rfl
  · exact hy
  · cases hy

theorem Closes.step {l : List Instr} {p : Bool} {c : Chan} {d e : Device} (h : Closes (hostWaits c l) p d.ending c e)
    (hheld : e.held = false) : StepRuled l d e := by
  refine ⟨h.states, fun y hy => ?_⟩
  rcases h.ending with hsame | ⟨hw, z, hz, rfl, hs⟩
  · exact .inl (hsame ▸ hy)
  · cases hz.symm.trans hy
    exact .inr ⟨hheld, hs, hw⟩

theorem Ruled.channelCloses {p w : Bool} {x : Option Ending} {d : Device} {c : Chan} (h : Ruled p x d) {f : Device → Device}
    (hf : Closes w p x c (f (Machine.served (reqChan c) d))) :
    Closes w p x c (Machine.channelGrant c f d) := by
  unfold Machine.channelGrant
  split
  · exact hf
  · exact h.closes

/-- The next state that `o` answers, if it answers one, keeps the rules and the queue. -/
def RuledBy (s : State) (o : Host.Outcome State Fault Refusal) : Prop :=
  ∀ t, o = .next t → StepRuled s.pending s.dev t.dev ∧ t.pending = s.pending

namespace RuledBy

variable {s : State} {f : Device → Device}

theorem act (h : StepRuled s.pending s.dev (f s.dev)) : RuledBy s (s.act f) := by
  intro t ht
  cases ht
  exact ⟨h, rfl⟩

theorem stepping (hs : statesRule s.dev) (h : s.dev.held = false → StepRuled s.pending s.dev (f s.dev)) :
    RuledBy s (s.act (happening f)) := by
  refine act ?_
  cases hheld : s.dev.held with
  | true => rw [happening_held hheld]; exact (Ruled.refl hs).some.step
  | false => rw [happening_running hheld]; exact h hheld

theorem happeningSome (hs : statesRule s.dev) (h : SomeRuled s.dev.ending (f s.dev)) : RuledBy s (s.act (happening f)) :=
  stepping hs fun _ => h.step

theorem happening {p : Bool} (hs : statesRule s.dev) (h : Ruled p s.dev.ending (f s.dev)) : RuledBy s (s.act (happening f)) :=
  happeningSome hs h.some

/-- A happening of a channel that may leave an ending between its fills. -/
theorem closing {p : Bool} {c : Chan} (hs : statesRule s.dev) (h : Closes (hostWaits c s.pending) p s.dev.ending c (f s.dev))
    (hk : Keeps everywhere s.dev (f s.dev)) : RuledBy s (s.act (Machine.happening f)) :=
  stepping hs fun hheld => h.step (hk.held.trans hheld)

theorem hostSome {a : Access} (hs : statesRule s.dev) (h : SomeRuled s.dev.ending (f s.dev)) :
    RuledBy s (s.act (Machine.hostAccess a f)) := by
  refine act (SomeRuled.step ?_)
  cases hheld : s.dev.held with
  | true =>
    rw [hostAccess, if_pos hheld]
    exact (Ruled.ofSame (Ruled.refl hs)).some
  | false => rw [hostAccess_running hheld]; exact h

theorem hostAccess {p : Bool} {a : Access} (hs : statesRule s.dev) (h : Ruled p s.dev.ending (f s.dev)) :
    RuledBy s (s.act (Machine.hostAccess a f)) := hostSome hs h.some

end RuledBy

theorem heldInReset_ruled (m : List Host.Cell) (n : Nat) (l : List Access) (d : Device) : Ruled false none (heldInReset m n l d) :=
  .reset (fun c => afterReset_chan false false 0 d.lanes.activity m n d.free c) rfl rfl rfl

theorem heldInReset_some (m : List Host.Cell) (n : Nat) (l : List Access) (d : Device) (x : Option Ending) :
    SomeRuled x (heldInReset m n l d) := ⟨_, _, heldInReset_ruled m n l d, .inr rfl⟩

theorem exec_ruledBy (i : Instr) (s : State) (h : statesRule s.dev) : RuledBy s (exec i s) := by
  have h0 := Ruled.refl h
  have hk := Keeps.refl everywhere s.dev
  have hr := holdsRing_everywhere
  cases i with
  | powerOn => exact .act (heldInReset_some ..).step
  | resetAssert => exact .act (heldInReset_some ..).step
  | endOfReset => exact .act h0.endOfReset.step
  | enable c => exact .happening h h0.takeCommand
  | disable c => exact .happening h h0.takeCommand
  | startSweep c => exact .happening h h0.takeCommand
  | startTrack c => exact .happening h h0.takeCommand
  | single c => exact .happening h h0.takeCommand
  | apply c => exact .happening h h0.takeCommand
  | stop c => exact .happening h h0.takeCommand
  | abort c => exact .happening h h0.takeCommand
  | clearHalt c => exact .happening h h0.takeCommand
  | clearCounters c => exact .happening h h0.takeCommand
  | resetChannel c => exact .happening h h0.takeCommand
  | commandBadCode v => exact .hostAccess h (h0.pageWrite fun _ _ he => he.commandAt)
  | snapshot => exact .hostSome h (h0.deviceCommandWrite (v := 1))
  | preload => exact .hostSome h (h0.deviceCommandWrite (v := 2))
  | abortPreload => exact .hostSome h (h0.deviceCommandWrite (v := 3))
  | deviceCommandBadCode v => exact .hostSome h h0.deviceCommandWrite
  | registerWrite => exact .hostSome h h0.writeAt
  | planTableWrite => exact .hostAccess h (h0.unlessPreload h0.writeWord)
  | ringControlWordWrite c p v => exact .hostSome h h0.ringControl_some
  | handback c => exact .happening h h0.takeHandback
  | overrunCountWrite v => exact .hostAccess h (h0.pageConfigWrite fun _ _ he => he.overrunAt)
  | channelEventSetWrite v => exact .hostAccess h (h0.pageWrite fun _ _ he => he.eventClearAt)
  | deviceEventSetWrite v => exact .hostAccess h h0.deviceEventWrite
  | eventEnableWrite r v =>
    cases r with
    | channel => exact .hostAccess h (h0.pageWrite fun _ _ he => he.enableAt)
    | device => exact .hostAccess h h0.ofSame
  | membersWrite g v => exact .hostAccess h h0.membersWrite
  | leadWrite g v => exact .hostAccess h h0.leadWrite
  | txSourceWrite t v => exact .hostAccess h h0.txSourceWrite
  | checkerSourceWrite c v => exact .hostAccess h h0.checkerSourceWrite
  | generatorModeWrite v => exact .hostAccess h (h0.pageConfigWrite fun _ _ he => he.storeGenMode)
  | userWordWrite r v => exact .hostAccess h (h0.pageConfigWrite fun _ _ he => he.storeUser)
  | checkerModeWrite r v => exact .hostAccess h (h0.pageConfigWrite fun _ _ he => he.storeChecker)
  | refdividerWrite v => exact .hostAccess h h0.refDividerWrite
  | msCounterLowRead => exact .hostAccess h h0.readAt
  | signalAbsent r => exact .act h0.setActivity.some.step
  | signalPresent r => exact .act h0.setActivity.some.step
  | receiveWord r w => exact .happening h h0.receiveWord
  | pointClosure c => exact .happening h h0.fromInbox.ruled
  | lockGained c => exact .happening h h0.fromInbox.ruled
  | lockLost c => exact .happening h h0.fromInbox.ruled
  | signalLost c =>
    refine .closing (p := preloadActive s.dev) (c := c) h ?_ ?_ <;> split
    · exact h0.flushGroup.fromInbox
    · exact h0.closes
    · exact (hk.solo (Solo.refl c _).flushGroup (hr c)).fromInbox (hr c)
    · exact hk
  | tick => exact .happening h h0.tick
  | settleTimerExpiry c => exact .happening h h0.takeSettle
  | lockTimerExpiry c => exact .happening h h0.takeLockTimeout
  | intervalTimerExpiry c => exact .happening h h0.takeInterval
  | barrierTimerExpiry g => exact .happening h h0.takeBarrierTimeout
  | refLost => exact .happening h h0.refLost
  | refOk => exact .happening h h0.refOk
  | channelRefclkLoss c =>
    refine .closing (p := preloadActive s.dev) (c := c) h ?_ ?_ <;> split
    · exact Ruled.takeRefLoss h0.flushGroup.modCtl
    · exact h0.closes
    · exact Keeps.takeRefLoss (hk.solo (Solo.refl c _).flushGroup (hr c)).modCtl (hr c)
    · exact hk
  | groupRefclkLoss => exact .happening h h0.groupLoss
  | checkerRefclkReturn c => exact .happening h h0.takeRefReturn
  | planCheckRead c =>
    refine .happening (p := preloadActive s.dev) h ?_
    split
    · exact h0.channelGrant h0.served.checkGrant
    · exact h0
  | planCheckEnd c => exact .happening h h0.takeCheckEnd
  | walkFetch c =>
    refine .closing (p := preloadActive s.dev) (c := c) h ?_ ?_ <;> split
    · exact h0.channelCloses h0.served.walkGrant
    · exact h0.closes
    · exact hk.channelGrant fun e he => he.solo ((Solo.refl c e).walkGrant _) (hr c)
    · exact hk
  | selectedRefetch c =>
    refine .happening (p := preloadActive s.dev) h ?_
    split
    · exact h0.channelGrant h0.served.selectedGrant
    · exact h0
  | singleReturnFetch c =>
    refine .happening (p := preloadActive s.dev) h ?_
    split
    · exact h0.channelGrant h0.served.singleGrant
    · exact h0
  | fill c =>
    refine .happening (p := preloadActive s.dev) h ?_
    split
    · exact h0.channelGrant h0.served.fillGrant
    · exact h0
  | listRead c =>
    refine .happening (p := preloadActive s.dev) h ?_
    split
    · exact h0.channelGrant h0.served.listGrant
    · exact h0
  | candidateFetch c =>
    refine .happening (p := preloadActive s.dev) h ?_
    split
    · exact h0.channelGrant h0.served.candidateGrant
    · exact h0
  | reapplicationFetch c =>
    refine .happening (p := preloadActive s.dev) h ?_
    split
    · exact h0.channelGrant h0.served.reapplyGrant
    · exact h0
  | trackCloseFetch c =>
    refine .happening (p := preloadActive s.dev) h ?_
    split
    · exact h0.channelGrant h0.served.closeGrant
    · exact h0
  | groupCheckRead g =>
    refine .happening (p := preloadActive s.dev) h ?_
    split
    · exact h0.paceGrant h0.servedGroup.groupCheckGrant
    · exact h0
  | groupCheckEnd g => exact .happening h h0.takeGroupCheckEnd
  | groupWalkFetch g =>
    refine .happening (p := preloadActive s.dev) h ?_
    split
    · exact h0.paceGrant h0.servedGroup.groupWalkGrant
    · exact h0
  | groupSelectedRefetch g =>
    refine .happening (p := preloadActive s.dev) h ?_
    split
    · exact h0.paceGrant h0.servedGroup.groupSelectedGrant
    · exact h0
  | memberTakesCopy c =>
    refine .happening (p := preloadActive s.dev) h ?_
    split
    · next hm => exact h0.takeCopy hm
    · exact h0
  | memberReport c => exact .happening h h0.takeReport
  | memberTakesAbort c =>
    refine .closing (p := preloadActive s.dev) (c := c) h ?_ ?_ <;> split
    · next hm => exact h0.takeAbort hm
    · exact h0.closes
    · exact hk.solo ((Solo.refl c _).takeAbort _ _) (hr c)
    · exact hk
  | memberTakesEnding c =>
    refine .happening (p := preloadActive s.dev) h ?_
    split
    · next hm => exact h0.takeEnding hm
    · exact h0
  | memberTakesHalt c =>
    refine .closing (p := preloadActive s.dev) (c := c) h ?_ ?_ <;> split
    · next hm => exact h0.takeHalt hm
    · exact h0.closes
    · exact hk.solo ((Solo.refl c _).takeHalt _ _ _) (hr c)
    · exact hk
  | memberHaltReport c => exact .happening h h0.takeHaltReport
  | serialTransferDone data => exact .happeningSome h h0.takeTransfer
  | preloadRamWrite => exact .happeningSome h h0.takeRamWrite
  | nack => exact .happeningSome h h0.takeNack
  | retryWaitExpiry => exact .happeningSome h h0.takeRetry
  | transferTimeout => exact .happeningSome h h0.takeTimeout
  | preloadHandedEnable c => exact .happening h h0.takeHandedEnable
  | preloadHandedStartSweep c => exact .happening h h0.takeHandedStart
  | wordTime => exact .happening h h0.wordTime
  | ringBodyWordWrite c p w v => exact .hostSome h h0.ringBody_some

/-! ### An ending that stands (R86, R180) -/

/-- A host write of ring `c` that is taken lets the ending of that channel go on. -/
theorem ringWriteAt_ruled {x : Option Ending} {d : Device} {c : Chan} {o : Nat} {v : BusWord} (h : Ruled false x d)
    (hlow : 0x0800 + 0x200 * c.val ≤ o) (hhigh : o < 0x0A00 + 0x200 * c.val) :
    Ruled false (leftStanding c x) (ringWriteAt o v d) := by
  have hc : (⟨(o - 0x0800) / 512 % 8, Nat.mod_lt _ (by decide)⟩ : Chan) = c := Fin.ext (by have := c.isLt; dsimp only; omega)
  unfold ringWriteAt
  dsimp only
  rw [hc]
  split
  · exact h.ringControlWrite
  · exact h.ringBodyWrite

theorem writeAt_ruled {x : Option Ending} {d : Device} {c : Chan} {o : Nat} {v : BusWord} (h : Ruled false x d)
    (hlow : 0x0800 + 0x200 * c.val ≤ o) (hhigh : o < 0x0A00 + 0x200 * c.val) : Ruled false (leftStanding c x) (writeAt o v d) := by
  have hc := c.isLt
  have hwrite : writeAt o v d = ringWriteAt o v d := by
    unfold Machine.writeAt
    rw [if_neg (by omega), dif_neg (by omega), if_neg (by omega), if_neg (by omega), if_neg (by omega), if_neg (by omega),
      if_pos (by omega)]
  rw [hwrite]
  exact ringWriteAt_ruled h hlow hhigh

/-- The command that a standing ending waits for lets it go on: none stands afterwards. -/
theorem exec_endsEnding {i : Instr} {l : List Instr} {s t : State} {y : Ending} (h : Ruled false (some y) s.dev)
    (hheld : s.dev.held = false) (hw : hostWaits y.chan (i :: l) = true) (ht : exec i s = .next t) : t.dev.ending = none := by
  have hgone : leftStanding y.chan (some y) = none := if_pos rfl
  have taken : ∀ (a : Access) (f : Device → Device), Ruled false (leftStanding y.chan (some y)) (f s.dev) →
      s.act (hostAccess a f) = .next t → t.dev.ending = none := by
    intro a f hf ht
    rw [State.act_eq, hostAccess_running hheld] at ht
    cases ht
    exact hf.ending.trans hgone
  unfold hostWaits at hw
  split at hw
  · next b q v _ hl =>
    cases hl
    obtain rfl : b = y.chan := of_decide_eq_true hw
    exact taken _ _ h.ringControlWrite ht
  · next b q w v _ hl =>
    cases hl
    obtain rfl : b = y.chan := of_decide_eq_true hw
    exact taken _ _ h.ringBodyWrite ht
  · next a v _ hl =>
    cases hl
    obtain ⟨hlow, hhigh⟩ := Bool.and_eq_true_iff.mp hw
    exact taken _ _ (writeAt_ruled h (of_decide_eq_true hlow) (of_decide_eq_true hhigh)) ht
  · cases hw

/-- A command keeps the rule of an ending between its fills. -/
theorem exec_endingRule {i : Instr} {rest : List Instr} {s t : State} (hs : statesRule s.dev) (hpend : s.pending = i :: rest)
    (hend : endingRule s) (ht : exec i { s with pending := rest } = .next t) : endingRule t := by
  obtain ⟨hstep, hrest⟩ := exec_ruledBy i { s with pending := rest } hs t ht
  intro y hy
  cases hx : s.dev.ending with
  | none =>
    rcases hstep.ending y hy with hold | ⟨hheld, hsweep, hw⟩
    · cases hx.symm.trans hold
    · exact ⟨hheld, hsweep, hrest ▸ hostWaits_eq y.chan rest ▸ hw⟩
  | some z =>
    obtain ⟨hheld, hsweep, hw⟩ := hend z hx
    rw [← hostWaits_eq, hpend] at hw
    have hruled : Ruled false (some z) s.dev := Ruled.awakeSweep ⟨hs, rfl, hx⟩ hsweep
    have hnone := exec_endsEnding (s := { s with pending := rest }) hruled hheld hw ht
    cases hnone.symm.trans hy

/-- On an empty queue no ending stands, and none comes to. -/
theorem idle_endingRule {s : State} (hs : statesRule s.dev) (hpend : s.pending = []) (hend : endingRule s) :
    endingRule { s with dev := idle s.dev } := by
  intro y hy
  have hold : s.dev.ending = some y := (Ruled.refl hs).idle.ending.symm.trans hy
  obtain ⟨_, _, hw⟩ := hend y hold
  rw [hpend] at hw
  cases hw

/-- Settles O6: every operation on the part keeps the rules of the channel states, and leaves an ending between its fills only where
the host waits with a write of its ring, which is then the next command and lets the ending go on. -/
theorem statesRuleKept : Obligations.StatesRuleKept := by
  intro s t hs ht
  unfold step at ht
  split at ht
  · next hpend =>
    cases ht
    exact ⟨(Ruled.refl hs).idle.states, idle_endingRule hs hpend⟩
  · next i rest hpend =>
    obtain ⟨hstep, _⟩ := exec_ruledBy i { s with pending := rest } hs t ht
    exact ⟨hstep.states, fun hend => exec_endingRule hs hpend hend ht⟩

end Sys2Proof.Machine
end
